-- ==== Sys2Proof/Word.lean ====
section
/-! DEFINITION. The word types of the core: a byte, a host address, a command word and a two-bit index. -/

namespace Sys2Proof

/-- One byte: every register and every memory element is one byte (R50, R53). -/
abbrev Byte := BitVec 8

/-- A host address of the 16-bit interface address space (R40). -/
abbrev Address := BitVec 16

/-- A command word, 20 bits (R70). -/
abbrev CommandWord := BitVec 20

/-- A two-bit index 0..3: a shade index of the framebuffer (R38) or a colour index of a tile pixel (R75). -/
abbrev Shade := BitVec 2

end Sys2Proof
end

