-- ==== Sys2Proof/Config.lean ====
section
/-! DEFINITION. What an implementation fixes: the sizes and addresses of the spec, the named parameters (`Config`), and the free values, which have no body. -/

namespace Sys2Proof

/-- STEP_POLICY (R111, R112; D10): at most one transition a STEP, or as many as the clock allows. -/
inductive StepPolicy where
  | single
  | loop
  deriving DecidableEq, Repr

/-- SPRITE_ORDER (R210, R211; D11): a later entry overwrites an earlier one, or one sprite wins each column. -/
inductive SpriteOrder where
  | oamOverwrite
  | hwPriority
  deriving DecidableEq, Repr

/-- MODE_CODE (R30; D4): what STAT bits 1..0 read in each mode. -/
structure ModeCodes where
  hblank       : BitVec 2
  vblank       : BitVec 2
  oamSearch    : BitVec 2
  vramTransfer : BitVec 2
  deriving DecidableEq, Repr

/-- SHADE[0..3] (R234; D21): the display values of the four shade indices, injected by the host. SHADE[1] and SHADE[2]
have no default (U3): `none` says that none was injected, and the value is then a free value (log entry 15). -/
structure ShadeTable where
  shade0 : Byte
  shade1 : Option Byte
  shade2 : Option Byte
  shade3 : Byte
  deriving DecidableEq, Repr

/-- The named parameters of 00_scope.md section 4 that a model takes as its configuration.
No command reads or writes them except as the rules say, and none changes them (log entry 6). -/
structure Config where
  tOam              : Nat
  tVram             : Nat
  tHBlank           : Nat
  stepPolicy        : StepPolicy
  spriteOrder       : SpriteOrder
  spriteEnableGated : Bool
  prebootLy         : Byte
  prebootScy        : Byte
  prebootScx        : Byte
  prebootLyc        : Byte
  prebootBgp        : Byte
  prebootObp0       : Byte
  prebootObp1       : Byte
  cpuPresent        : Bool
  mmuPresent        : Bool
  modeCodes         : ModeCodes
  shades            : ShadeTable
  deriving DecidableEq, Repr

namespace Config

/-- The defaults of 00_scope.md section 4, with both collaborators present (95_test_vectors.md). -/
def default : Config where
  tOam              := 80
  tVram             := 172
  tHBlank           := 204
  stepPolicy        := .single
  spriteOrder       := .oamOverwrite
  spriteEnableGated := true
  prebootLy         := 0x00
  prebootScy        := 0x00
  prebootScx        := 0x00
  prebootLyc        := 0x00
  prebootBgp        := 0xFC
  prebootObp0       := 0xFF
  prebootObp1       := 0xFF
  cpuPresent        := true
  mmuPresent        := true
  modeCodes         := { hblank := 0, vblank := 1, oamSearch := 2, vramTransfer := 3 }
  shades            := { shade0 := 0xEB, shade1 := none, shade2 := none, shade3 := 0x00 }

/-- LINE_CYCLES: the cycles of one scanline (00_scope.md section 4). -/
abbrev lineCycles : Nat := 456

/-- T_VBLANK_LINE: a VBlank line is one threshold of a whole line (R5; C2). -/
abbrev tVBlankLine : Nat := 456

/-- TOTAL_LINES: 144 visible lines and 10 VBlank lines. -/
abbrev totalLines : Nat := 154

/-- FRAME_CYCLES = 154 × 456. -/
abbrev frameCycles : Nat := 70224

/-- SCREEN_W, the columns of the framebuffer (R38). -/
abbrev screenWidth : Nat := 160

/-- SCREEN_H, the rows of the framebuffer, that is the visible lines (R38). -/
abbrev screenHeight : Nat := 144

/-- VRAM_SIZE (R36). -/
abbrev vramSize : Nat := 8192

/-- OAM_SIZE: 40 entries of 4 bytes (R37). -/
abbrev oamSize : Nat := 160

/-- The number of sprite entries in OAM (R37, R212). -/
abbrev spriteCount : Nat := 40

/-- VRAM_BASE (R56; D2; log entry 7). -/
abbrev vramBase : Nat := 0x8000

/-- OAM_BASE (R56; D2; log entry 7). -/
abbrev oamBase : Nat := 0xFE00

/-- The constraint of R5 on the visible-line thresholds: each at least 1, together one line. -/
abbrev ok (c : Config) : Prop :=
  1 ≤ c.tOam ∧ 1 ≤ c.tVram ∧ 1 ≤ c.tHBlank ∧ c.tOam + c.tVram + c.tHBlank = lineCycles

/-- FREE VALUE (R174; U2, U23; log entry 11): the byte the external memory collaborator answers at the
given draw for the given address. It has no body: nothing can be proved of it. -/
opaque extByte : (draw : Nat) → (address : Nat) → Byte

/-- FREE VALUE (R271; U1; log entry 9): the VRAM byte MEM_INIT draws at the given creation of the core (0 for the
reset, then one for each POWER_ON) for the given offset. It has no body. -/
opaque vramInit : (creation : Nat) → (offset : Nat) → Byte

/-- FREE VALUE (R271; U1; log entry 9): the OAM byte MEM_INIT draws at the given creation for the given offset.
It has no body. -/
opaque oamInit : (creation : Nat) → (offset : Nat) → Byte

/-- FREE VALUE (R234; U3; log entry 15): the display value of shade index 1 where none was injected.
It has no body. -/
opaque shade1 : Byte

/-- FREE VALUE (R234; U3; log entry 15): the display value of shade index 2 where none was injected.
It has no body. -/
opaque shade2 : Byte

end Config

end Sys2Proof
end

