-- ==== Sys2Proof/Syntax.lean ====
section
/-! DEFINITION. Host calls, the instructions (one constructor per row of the opcode table), and the textual command lines. -/

namespace Sys2Proof

/-- A reference to a frame observer: a name the core only stores and calls (R26, R233). -/
abbrev ObserverRef := Nat

/-- The operand of a call outside its word (R70): at most one, of the kind its class carries. -/
inductive Operand where
  | none
  | value (v : Nat)
  | cycles (n : Nat)
  | observer (o : Option ObserverRef)
  deriving DecidableEq, Repr

/-- One interface call as the host makes it: a command word and at most one operand (R70). -/
structure HostCall where
  word    : CommandWord
  operand : Operand
  deriving DecidableEq, Repr

/-- The interface commands, one constructor per row of spec/opcode_table.json.
`off` is the part of the address that the row leaves open; a value is its low eight bits (R73). -/
inductive Instr where
  /-- READ_VRAM, VRAM offset `off` (R134). -/
  | readVram (off : BitVec 13)
  /-- WRITE_VRAM (R135). -/
  | writeVram (off : BitVec 13) (v : Byte)
  /-- READ_OAM_LO, OAM offset `off` (R136). -/
  | readOamLo (off : BitVec 7)
  /-- READ_OAM_HI, OAM offset `128 + off` (R136). -/
  | readOamHi (off : BitVec 5)
  /-- WRITE_OAM_LO (R143). -/
  | writeOamLo (off : BitVec 7) (v : Byte)
  /-- WRITE_OAM_HI (R143). -/
  | writeOamHi (off : BitVec 5) (v : Byte)
  /-- READ_LCDC (R141). -/
  | readLcdc
  /-- WRITE_LCDC (R142). -/
  | writeLcdc (v : Byte)
  /-- READ_STAT (R137). -/
  | readStat
  /-- WRITE_STAT (R138). -/
  | writeStat (v : Byte)
  /-- READ_SCY (R148). -/
  | readScy
  /-- WRITE_SCY (R149). -/
  | writeScy (v : Byte)
  /-- READ_SCX (R150). -/
  | readScx
  /-- WRITE_SCX (R151). -/
  | writeScx (v : Byte)
  /-- READ_LY (R139). -/
  | readLy
  /-- WRITE_LY (R140). -/
  | writeLy (v : Byte)
  /-- READ_LYC (R152). -/
  | readLyc
  /-- WRITE_LYC (R153). -/
  | writeLyc (v : Byte)
  /-- READ_DMA (R145). -/
  | readDma
  /-- WRITE_DMA (R144, R170). -/
  | writeDma (v : Byte)
  /-- READ_BGP (R154). -/
  | readBgp
  /-- WRITE_BGP (R155). -/
  | writeBgp (v : Byte)
  /-- READ_OBP0 (R156). -/
  | readObp0
  /-- WRITE_OBP0 (R157). -/
  | writeObp0 (v : Byte)
  /-- READ_OBP1 (R158). -/
  | readObp1
  /-- WRITE_OBP1 (R159). -/
  | writeObp1 (v : Byte)
  /-- READ_WY (R160). -/
  | readWy
  /-- WRITE_WY (R161). -/
  | writeWy (v : Byte)
  /-- READ_WX (R162). -/
  | readWx
  /-- WRITE_WX (R163). -/
  | writeWx (v : Byte)
  /-- READ_OTHER, an address outside the map (R146). -/
  | readOther (addr : Address)
  /-- WRITE_OTHER (R147). -/
  | writeOther (addr : Address) (v : Byte)
  /-- STEP (R100). -/
  | step (cycles : Nat)
  /-- PREBOOT (R272). -/
  | preboot
  /-- POWER_ON (R270). -/
  | powerOn
  /-- REGISTER_OBSERVER (R233). -/
  | registerObserver (o : Option ObserverRef)
  /-- GET_FRAMEBUFFER (R232). -/
  | getFramebuffer
  deriving DecidableEq, Repr

/-- One line of the textual command syntax (R82), the pseudo-commands of R83 among them. -/
inductive Line where
  | powerOn
  | preboot
  | step (n : Nat)
  | rd (a : Address)
  | wr (a : Address) (v : Byte)
  | observe (o : Option ObserverRef)
  | getFb
  | stepx (n k : Nat)
  | wrs (a : Address) (vs : List Byte)
  | line
  deriving DecidableEq, Repr

end Sys2Proof
end

