-- ==== Sys2Proof/WellFormed.lean ====
section
/-! DEFINITION. When an address is in the map of R56, and when an instruction is well formed: the two catch-all rows hold only the addresses outside that map. -/

namespace Sys2Proof

/-- The address is in the VRAM window (R56). -/
def inVram (a : Address) : Bool := decide (Config.vramBase ≤ a.toNat ∧ a.toNat < Config.vramBase + Config.vramSize)

/-- The address is in the OAM window (R56). -/
def inOam (a : Address) : Bool := decide (Config.oamBase ≤ a.toNat ∧ a.toNat < Config.oamBase + Config.oamSize)

/-- The address is one of the twelve registers (R27, R56). -/
def inRegs (a : Address) : Bool := decide (0xFF40 ≤ a.toNat ∧ a.toNat ≤ 0xFF4B)

/-- The core decodes the address (R56); every other address is unrecognized. -/
def mapped (a : Address) : Bool := inVram a || inOam a || inRegs a

/-- Every operand an instruction can carry is legal (R73, R81) but for one thing: READ_OTHER and WRITE_OTHER
are taken only when no other row of the class matches (R72). -/
def Instr.wellFormed : Instr → Bool
  | .readOther a | .writeOther a _ => !mapped a
  | .readVram _ | .writeVram _ _ | .readOamLo _ | .readOamHi _ | .writeOamLo _ _ | .writeOamHi _ _
  | .readLcdc | .writeLcdc _ | .readStat | .writeStat _ | .readScy | .writeScy _ | .readScx | .writeScx _
  | .readLy | .writeLy _ | .readLyc | .writeLyc _ | .readDma | .writeDma _ | .readBgp | .writeBgp _
  | .readObp0 | .writeObp0 _ | .readObp1 | .writeObp1 _ | .readWy | .writeWy _ | .readWx | .writeWx _
  | .step _ | .preboot | .powerOn | .registerObserver _ | .getFramebuffer => true

end Sys2Proof
end

