-- ==== Sys2Proof/Decode.lean ====
section
/-! DEFINITION. Decoding a host call to an instruction, total and rejecting by name; the encoder; the opcode table's rows; the assembly of command lines. -/

namespace Sys2Proof

/-- Why a call spells no command (R73, R80). Each is raised by `decode` alone and is safe: nothing is executed. -/
inductive DecodeError where
  /-- The class is 0x7..0xF (R80). -/
  | reservedClass
  /-- The class is neither READ nor WRITE and the address field is not 0 (R80). -/
  | addrNotZero
  /-- A WRITE value above 255 (R73; U5). -/
  | valueTooWide
  /-- The operand is not of the kind the class carries (R70; log entry 3). -/
  | wrongOperand
  deriving DecidableEq, Repr

/-- The command class, bits 19..16 (R70). -/
def HostCall.cls (c : HostCall) : Nat := (c.word.extractLsb' 16 4).toNat

/-- The address field, bits 15..0 (R70). -/
def HostCall.addr (c : HostCall) : Address := c.word.extractLsb' 0 16

/-- The READ row an address selects (R72): exact registers, then VRAM, then OAM, then the catch-all. -/
def decodeRead (a : Address) : Instr :=
  if a.toNat = 0xFF40 then .readLcdc
  else if a.toNat = 0xFF41 then .readStat
  else if a.toNat = 0xFF42 then .readScy
  else if a.toNat = 0xFF43 then .readScx
  else if a.toNat = 0xFF44 then .readLy
  else if a.toNat = 0xFF45 then .readLyc
  else if a.toNat = 0xFF46 then .readDma
  else if a.toNat = 0xFF47 then .readBgp
  else if a.toNat = 0xFF48 then .readObp0
  else if a.toNat = 0xFF49 then .readObp1
  else if a.toNat = 0xFF4A then .readWy
  else if a.toNat = 0xFF4B then .readWx
  else if 0x8000 ≤ a.toNat ∧ a.toNat ≤ 0x9FFF then .readVram (BitVec.ofNat 13 (a.toNat - 0x8000))
  else if 0xFE00 ≤ a.toNat ∧ a.toNat ≤ 0xFE7F then .readOamLo (BitVec.ofNat 7 (a.toNat - 0xFE00))
  else if 0xFE80 ≤ a.toNat ∧ a.toNat ≤ 0xFE9F then .readOamHi (BitVec.ofNat 5 (a.toNat - 0xFE80))
  else .readOther a

/-- The WRITE row an address selects, in the same order (R72). -/
def decodeWrite (a : Address) (v : Byte) : Instr :=
  if a.toNat = 0xFF40 then .writeLcdc v
  else if a.toNat = 0xFF41 then .writeStat v
  else if a.toNat = 0xFF42 then .writeScy v
  else if a.toNat = 0xFF43 then .writeScx v
  else if a.toNat = 0xFF44 then .writeLy v
  else if a.toNat = 0xFF45 then .writeLyc v
  else if a.toNat = 0xFF46 then .writeDma v
  else if a.toNat = 0xFF47 then .writeBgp v
  else if a.toNat = 0xFF48 then .writeObp0 v
  else if a.toNat = 0xFF49 then .writeObp1 v
  else if a.toNat = 0xFF4A then .writeWy v
  else if a.toNat = 0xFF4B then .writeWx v
  else if 0x8000 ≤ a.toNat ∧ a.toNat ≤ 0x9FFF then .writeVram (BitVec.ofNat 13 (a.toNat - 0x8000)) v
  else if 0xFE00 ≤ a.toNat ∧ a.toNat ≤ 0xFE7F then .writeOamLo (BitVec.ofNat 7 (a.toNat - 0xFE00)) v
  else if 0xFE80 ≤ a.toNat ∧ a.toNat ≤ 0xFE9F then .writeOamHi (BitVec.ofNat 5 (a.toNat - 0xFE80)) v
  else .writeOther a v

/-- The command a class 2..6 call spells when its address field is 0 (R71). -/
def decodeOther (cls : Nat) (o : Operand) : Except DecodeError Instr :=
  match cls, o with
  | 2, .cycles n   => .ok (.step n)
  | 3, .none       => .ok .preboot
  | 4, .none       => .ok .powerOn
  | 5, .observer r => .ok (.registerObserver r)
  | 6, .none       => .ok .getFramebuffer
  | _, _           => .error .wrongOperand

/-- What a READ call spells (R71). -/
def decodeReadCall (c : HostCall) : Except DecodeError Instr :=
  match c.operand with
  | .none => .ok (decodeRead c.addr)
  | _     => .error .wrongOperand

/-- What a WRITE call spells (R71, R73): a value above 255 is refused. -/
def decodeWriteCall (c : HostCall) : Except DecodeError Instr :=
  match c.operand with
  | .value v => if v < 256 then .ok (decodeWrite c.addr (BitVec.ofNat 8 v)) else .error .valueTooWide
  | _        => .error .wrongOperand

/-- The instruction a host call spells, or why it spells none (R70 to R73, R80). -/
def decode (c : HostCall) : Except DecodeError Instr :=
  if c.cls = 0 then decodeReadCall c
  else if c.cls = 1 then decodeWriteCall c
  else if 7 ≤ c.cls then .error .reservedClass
  else if c.addr ≠ 0 then .error .addrNotZero
  else decodeOther c.cls c.operand

/-- The command word of class `cls` and address field `a` (R70). -/
def commandWord (cls a : Nat) : CommandWord := BitVec.ofNat 20 (cls * 0x10000 + a)

/-- A READ call of an address (R82, `RD a`). -/
def HostCall.read (a : Nat) : HostCall := ⟨commandWord 0 a, .none⟩

/-- A WRITE call of a byte (R82, `WR a, v`). -/
def HostCall.write (a : Nat) (v : Byte) : HostCall := ⟨commandWord 1 a, .value v.toNat⟩

/-- The host call that spells an instruction, from the encoding tables of R27, R56 and R71. -/
def encode : Instr → HostCall
  | .readVram o         => .read (0x8000 + o.toNat)
  | .writeVram o v      => .write (0x8000 + o.toNat) v
  | .readOamLo o        => .read (0xFE00 + o.toNat)
  | .readOamHi o        => .read (0xFE80 + o.toNat)
  | .writeOamLo o v     => .write (0xFE00 + o.toNat) v
  | .writeOamHi o v     => .write (0xFE80 + o.toNat) v
  | .readLcdc           => .read 0xFF40
  | .writeLcdc v        => .write 0xFF40 v
  | .readStat           => .read 0xFF41
  | .writeStat v        => .write 0xFF41 v
  | .readScy            => .read 0xFF42
  | .writeScy v         => .write 0xFF42 v
  | .readScx            => .read 0xFF43
  | .writeScx v         => .write 0xFF43 v
  | .readLy             => .read 0xFF44
  | .writeLy v          => .write 0xFF44 v
  | .readLyc            => .read 0xFF45
  | .writeLyc v         => .write 0xFF45 v
  | .readDma            => .read 0xFF46
  | .writeDma v         => .write 0xFF46 v
  | .readBgp            => .read 0xFF47
  | .writeBgp v         => .write 0xFF47 v
  | .readObp0           => .read 0xFF48
  | .writeObp0 v        => .write 0xFF48 v
  | .readObp1           => .read 0xFF49
  | .writeObp1 v        => .write 0xFF49 v
  | .readWy             => .read 0xFF4A
  | .writeWy v          => .write 0xFF4A v
  | .readWx             => .read 0xFF4B
  | .writeWx v          => .write 0xFF4B v
  | .readOther a        => .read a.toNat
  | .writeOther a v     => .write a.toNat v
  | .step n             => ⟨commandWord 2 0, .cycles n⟩
  | .preboot            => ⟨commandWord 3 0, .none⟩
  | .powerOn            => ⟨commandWord 4 0, .none⟩
  | .registerObserver r => ⟨commandWord 5 0, .observer r⟩
  | .getFramebuffer     => ⟨commandWord 6 0, .none⟩

/-- One row of spec/opcode_table.json: a word matches when `word &&& mask = pattern` (R72). -/
structure OpcodeRow where
  pattern : CommandWord
  mask    : CommandWord
  deriving DecidableEq, Repr

/-- A row that fixes every bit of the word. -/
def OpcodeRow.exact (w : CommandWord) : OpcodeRow := ⟨w, 0xFFFFF⟩

/-- The row of spec/opcode_table.json an instruction belongs to, its `match` and `mask` as the table writes them. -/
def Instr.row : Instr → OpcodeRow
  | .readVram _         => ⟨0x08000, 0xFE000⟩
  | .writeVram _ _      => ⟨0x18000, 0xFE000⟩
  | .readOamLo _        => ⟨0x0FE00, 0xFFF80⟩
  | .readOamHi _        => ⟨0x0FE80, 0xFFFE0⟩
  | .writeOamLo _ _     => ⟨0x1FE00, 0xFFF80⟩
  | .writeOamHi _ _     => ⟨0x1FE80, 0xFFFE0⟩
  | .readLcdc           => .exact 0x0FF40
  | .writeLcdc _        => .exact 0x1FF40
  | .readStat           => .exact 0x0FF41
  | .writeStat _        => .exact 0x1FF41
  | .readScy            => .exact 0x0FF42
  | .writeScy _         => .exact 0x1FF42
  | .readScx            => .exact 0x0FF43
  | .writeScx _         => .exact 0x1FF43
  | .readLy             => .exact 0x0FF44
  | .writeLy _          => .exact 0x1FF44
  | .readLyc            => .exact 0x0FF45
  | .writeLyc _         => .exact 0x1FF45
  | .readDma            => .exact 0x0FF46
  | .writeDma _         => .exact 0x1FF46
  | .readBgp            => .exact 0x0FF47
  | .writeBgp _         => .exact 0x1FF47
  | .readObp0           => .exact 0x0FF48
  | .writeObp0 _        => .exact 0x1FF48
  | .readObp1           => .exact 0x0FF49
  | .writeObp1 _        => .exact 0x1FF49
  | .readWy             => .exact 0x0FF4A
  | .writeWy _          => .exact 0x1FF4A
  | .readWx             => .exact 0x0FF4B
  | .writeWx _          => .exact 0x1FF4B
  | .readOther _        => ⟨0x00000, 0xF0000⟩
  | .writeOther _ _     => ⟨0x10000, 0xF0000⟩
  | .step _             => .exact 0x20000
  | .preboot            => .exact 0x30000
  | .powerOn            => .exact 0x40000
  | .registerObserver _ => .exact 0x50000
  | .getFramebuffer     => .exact 0x60000

/-- The operand of zeros that a class carries when a word comes alone. -/
def zeroOperand (w : CommandWord) : Operand :=
  match (w.extractLsb' 16 4).toNat with
  | 1 => .value 0
  | 2 => .cycles 0
  | 5 => .observer none
  | _ => .none

/-- The call made of a word numbered as the opcode table numbers it, its operand zero (log entry 21). -/
def callOfTableWord (w : Nat) : HostCall := ⟨BitVec.ofNat 20 w, zeroOperand (BitVec.ofNat 20 w)⟩

/-- The instruction the decoder reads from a word of the opcode table; a word wider than 20 bits is none. -/
def decodeTableWord (_nbits w : Nat) : Option Instr :=
  if w < 0x100000 then
    match decode (callOfTableWord w) with
    | .ok i    => some i
    | .error _ => none
  else none

/-- The byte writes of `WRS a, v0, v1, …`: ascending addresses from `a` (R83). -/
def assembleWrs (a : Address) : List Byte → List HostCall
  | []      => []
  | v :: vs => HostCall.write a.toNat v :: assembleWrs (a + 1) vs

/-- The host calls a command line stands for (R82, R83). -/
def assemble : Line → List HostCall
  | .powerOn   => [encode .powerOn]
  | .preboot   => [encode .preboot]
  | .step n    => [encode (.step n)]
  | .rd a      => [.read a.toNat]
  | .wr a v    => [.write a.toNat v]
  | .observe o => [encode (.registerObserver o)]
  | .getFb     => [encode .getFramebuffer]
  | .stepx n k => List.replicate k (encode (.step n))
  | .wrs a vs  => assembleWrs a vs
  | .line      => [encode (.step 80), encode (.step 172), encode (.step 204)]

end Sys2Proof
end

