-- ==== Sys2Proof/Machine/State.lean ====
section
/-! DEFINITION. The state of the core as plain data, what its calls put out, the reasons a step can stop, and the state right after creation. -/

namespace Sys2Proof.Machine

/-- The four timing phases (R23). -/
inductive Mode where
  | oamSearch
  | vramTransfer
  | hblank
  | vblank
  deriving DecidableEq, Repr

/-- The bytes of an array that something has fixed, by offset: (offset, byte) pairs, offsets strictly rising
(`Memory.wf`). VRAM offsets are 0..8191 (R36), OAM offsets 0..159 (R37). An unlisted byte still holds what its creation
drew for it (R271; log entry 9). -/
abbrev Memory := List Host.Cell

/-- One framebuffer row, 160 shade indices (R38). -/
abbrev Row := Vector Shade Config.screenWidth

/-- The framebuffer, 144 rows (R38). -/
abbrev Frame := Vector Row Config.screenHeight

/-- The stored interface registers of R27. STAT is held as its writable bits 7..3 (R20, R29); DMA holds nothing (R34). -/
structure RegBank where
  lcdc   : Byte
  statHi : BitVec 5
  scy    : Byte
  scx    : Byte
  ly     : Byte
  lyc    : Byte
  bgp    : Byte
  obp0   : Byte
  obp1   : Byte
  wy     : Byte
  wx     : Byte
  deriving DecidableEq, Repr

/-- The names of the registers stored as a whole byte. -/
inductive Reg where
  | lcdc | scy | scx | ly | lyc | bgp | obp0 | obp1 | wy | wx
  deriving DecidableEq, Repr

/-- The two kinds of interrupt request (R242). -/
inductive IrqKind where
  | vblank
  | lcdStat
  deriving DecidableEq, Repr

/-- The two kinds of diagnostic log entry (R241). -/
inductive LogKind where
  | readUnrecognized
  | writeUnrecognized
  deriving DecidableEq, Repr

/-- The events a call emits (00_scope.md section 5). -/
inductive Event where
  | irq (k : IrqKind)
  | frameComplete
  | log (k : LogKind) (a : Address)
  deriving DecidableEq, Repr

/-- What a call does to the outside, in order: an event, a call of the observer (R230), a read of external memory (R170). -/
inductive Output where
  | event (e : Event)
  | observerCall (o : ObserverRef)
  | extRead (a : Nat)
  deriving DecidableEq, Repr

/-- What a call returns (R70): nothing, a byte (READ), or the live view of the framebuffer (R232). -/
inductive Result where
  | nothing
  | byte (b : Byte)
  | framebufferView
  deriving DecidableEq, Repr

/-- Contents that a run fixes for the memories a POWER_ON creates (R271; log entry 10): bytes by offset, and a byte for
every offset not among them; with none for it, those are draws. -/
structure MemImage where
  vram : Memory
  oam  : Memory
  fill : Option Byte
  deriving DecidableEq, Repr

/-- The state. The fields from `mode` to `observer` are the core state of R20; `cfg` is its configuration, which no
command changes (log entry 6); the rest are the model's own: the calls to come, and what the current call puts out,
returns and draws (log entries 1, 4, 9, 10, 11). -/
@[ext]
structure State where
  cfg      : Config
  mode     : Mode
  clk      : Nat
  coinc    : Bool
  regs     : RegBank
  vram     : Memory
  oam      : Memory
  fb       : Frame
  observer : Option ObserverRef
  calls    : List HostCall
  outputs  : List Output
  result   : Result
  extMem   : List Host.Cell
  extDraws : Nat
  memFill  : Option Byte
  memDraws : List MemImage
  creation : Nat
  deriving DecidableEq, Repr

/-- The core raises no exception: its cause table is empty (R240), so no fault has a name. -/
inductive Fault where
  deriving DecidableEq, Repr

/-- Why a step gives the next call no meaning. -/
inductive Refusal where
  /-- An instruction without a meaning. Raised by no arm of `exec`. Safe: nothing is executed. -/
  | notModelled (mnemonic : String)
  /-- The call spells no command (R80). Raised by `step` when `decode` refuses. Safe: no state changes. -/
  | noSuchCommand (e : DecodeError)
  deriving DecidableEq, Repr

/-- Every register at its creation value (R270). -/
def RegBank.reset : RegBank where
  lcdc := 0x00
  statHi := 0
  scy := 0x00
  scx := 0x00
  ly := 0x00
  lyc := 0x00
  bgp := 0x00
  obp0 := 0x00
  obp1 := 0x00
  wy := 0x00
  wx := 0x00

/-- The framebuffer at creation: all 0 (R270). -/
def Frame.blank : Frame := Vector.replicate Config.screenHeight (Vector.replicate Config.screenWidth 0)

/-- The core right after creation (R270), with the default configuration and no call to make. Its memories are draws:
no byte of them is fixed (R271; log entry 9). -/
def State.reset : State where
  cfg := Config.default
  mode := .vblank
  clk := 0
  coinc := false
  regs := RegBank.reset
  vram := []
  oam := []
  fb := Frame.blank
  observer := none
  calls := []
  outputs := []
  result := .nothing
  extMem := []
  extDraws := 0
  memFill := none
  memDraws := []
  creation := 0

end Sys2Proof.Machine
end

