-- ==== Sys2Proof/Machine/Flags.lean ====
section
/-! DEFINITION. The flags and control bits: LCDC and STAT bits, the mode code, the STAT byte, the coincidence comparison, the arbiters' conditions, the palettes. -/

namespace Sys2Proof.Machine

/-- LCDC bit `b` (R28). -/
def State.lcdcBit (s : State) (b : Nat) : Bool := s.regs.lcdc.getLsbD b

/-- LCDC bit 7: the display is enabled (R28). -/
def State.displayOn (s : State) : Bool := s.lcdcBit 7

/-- STAT bit 3, HBlank-int-enable (R29): bit 0 of the stored bits 7..3. -/
def State.hblankIntEnable (s : State) : Bool := s.regs.statHi.getLsbD 0

/-- STAT bit 4, VBlank-int-enable (R29). -/
def State.vblankIntEnable (s : State) : Bool := s.regs.statHi.getLsbD 1

/-- STAT bit 6, LYC-int-enable (R29). -/
def State.lycIntEnable (s : State) : Bool := s.regs.statHi.getLsbD 3

/-- MODE_CODE of a mode (R30). -/
def modeCode (c : ModeCodes) : Mode → BitVec 2
  | .hblank       => c.hblank
  | .vblank       => c.vblank
  | .oamSearch    => c.oamSearch
  | .vramTransfer => c.vramTransfer

/-- The byte READ_STAT returns (R137): the stored bits 7..3, S.coinc in bit 2, the mode code in bits 1..0. -/
def State.statByte (s : State) : Byte :=
  s.regs.statHi ++ (BitVec.ofBool s.coinc ++ modeCode s.cfg.modeCodes s.mode)

/-- The value the coincidence flag takes (R108): LY equals LYC. -/
def State.lyEqLyc (s : State) : Bool := s.regs.ly == s.regs.lyc

/-- VRAM_BLOCKED (R131). -/
def State.vramBlocked (s : State) : Bool := s.displayOn && s.mode == .vramTransfer

/-- OAM_BLOCKED (R132). -/
def State.oamBlocked (s : State) : Bool := s.displayOn && (s.mode == .oamSearch || s.mode == .vramTransfer)

/-- PAL(P, c) = (P >> 2c) & 3 (R33). -/
def palette (p : Byte) (c : Shade) : Shade := (p >>> (2 * c.toNat)).setWidth 2

end Sys2Proof.Machine
end

