-- ==== Sys2Proof/Machine/Operands.lean ====
section
/-! DEFINITION. The operand forms the core interprets: OAM offsets, tile and map addresses, tile pixels, sprite entries. -/

namespace Sys2Proof.Machine

/-- The OAM offset of a READ_OAM_HI or WRITE_OAM_HI row: its addresses begin at 0xFE80 (R72, R73). -/
def oamHiOffset (off : BitVec 5) : Nat := 128 + off.toNat

/-- The colour index of bit `b` of a tile row (R75, R184): high bit from the second byte, low bit from the first. -/
def colourIndex (lo hi : Byte) (b : Nat) : Shade := BitVec.ofBool (hi.getLsbD b) ++ BitVec.ofBool (lo.getLsbD b)

/-- The tile map base selected by LCDC bit 3 (R182). -/
def mapBase (bit3 : Bool) : Nat := if bit3 then 0x9C00 else 0x9800

/-- The address of a map entry (R78): 32 × 32 bytes, row-major. -/
def mapAddress (bit3 : Bool) (tr tc : Nat) : Nat := mapBase bit3 + 32 * tr + tc

/-- The tile row of line `y` (R181), on unbounded numbers. -/
def bgTileRow (scy : Byte) (y : Nat) : Nat := (y + scy.toNat) / 8 % 32

/-- The pixel row within the tile (R181). -/
def bgPixelRow (scy : Byte) (y : Nat) : Nat := (y + scy.toNat) % 8

/-- The tile column of screen column `x` (R181). -/
def bgTileCol (scx : Byte) (x : Nat) : Nat := (scx.toNat + x) / 8 % 32

/-- The bit a background pixel is taken from (R184). -/
def bgBit (scx : Byte) (x : Nat) : Nat := 7 - (scx.toNat + x) % 8

/-- The address of a background tile (R79, R183): unsigned from 0x8000 when LCDC bit 4 is 1, signed from 0x9000 when 0. -/
def bgTileAddress (bit4 : Bool) (idx : Byte) : Nat :=
  if bit4 then 0x8000 + 16 * idx.toNat else ((0x9000 : Int) + 16 * idx.toInt).toNat

/-- The address of a sprite tile, always unsigned from 0x8000 (R205; D7). -/
def spriteTileAddress (tile : Byte) : Nat := 0x8000 + 16 * tile.toNat

/-- One OAM entry (R76). -/
structure Sprite where
  y    : Byte
  x    : Byte
  tile : Byte
  attr : Byte
  deriving DecidableEq, Repr

/-- ATTR bit 7: behind the background (R77). -/
def Sprite.behind (sp : Sprite) : Bool := sp.attr.getLsbD 7

/-- ATTR bit 6: vertical flip (R77). -/
def Sprite.flipY (sp : Sprite) : Bool := sp.attr.getLsbD 6

/-- ATTR bit 5: horizontal flip (R77). -/
def Sprite.flipX (sp : Sprite) : Bool := sp.attr.getLsbD 5

/-- ATTR bit 4: OBP1 instead of OBP0 (R77). -/
def Sprite.useObp1 (sp : Sprite) : Bool := sp.attr.getLsbD 4

/-- The screen row of the sprite's top line, an integer (R202). -/
def Sprite.top (sp : Sprite) : Int := (sp.y.toNat : Int) - 16

/-- The screen column of the sprite's left pixel, an integer (R202). -/
def Sprite.left (sp : Sprite) : Int := (sp.x.toNat : Int) - 8

/-- The sprite of height `h` covers line `y` (R203). -/
def Sprite.covers (sp : Sprite) (h y : Nat) : Bool := decide (sp.top ≤ y ∧ (y : Int) < sp.top + h)

/-- The tile index used (R201): its low bit cleared for 8×16 sprites. -/
def Sprite.tileFor (sp : Sprite) (h : Nat) : Byte := if h = 16 then sp.tile &&& 0xFE else sp.tile

/-- The row within the sprite (R204), counted from the bottom when flipped. -/
def Sprite.rowFor (sp : Sprite) (h y : Nat) : Nat :=
  if sp.flipY then h - 1 - ((y : Int) - sp.top).toNat else ((y : Int) - sp.top).toNat

/-- The bit a sprite pixel is taken from (R206). -/
def Sprite.bitFor (sp : Sprite) (px : Nat) : Nat := if sp.flipX then px else 7 - px

end Sys2Proof.Machine
end

