-- ==== Sys2Proof/Machine/Ops.lean ====
section
/-! DEFINITION. The named operations over memory, registers and outputs: each update of the state once, the arbitrated accesses, the diagnostic log, the interrupt request, the frame sink, the external read. -/

namespace Sys2Proof.Machine

/-- The byte a memory lists at an offset, if it lists one. -/
def Memory.lookup : Memory → Nat → Option Byte
  | [], _          => none
  | (k, b) :: m, a => if k = a then some b else Memory.lookup m a

/-- List a byte at an offset, keeping the canonical form. -/
def Memory.write : Memory → Nat → Byte → Memory
  | [], a, v => [(a, v)]
  | (k, b) :: m, a, v =>
    if k < a then (k, b) :: Memory.write m a v
    else if k = a then (a, v) :: m
    else (a, v) :: (k, b) :: m

/-- The canonical form: offsets strictly rising. What an unlisted offset reads as is no fixed value, so there is no
value that an entry must not have. -/
abbrev Memory.wf (m : Memory) : Prop := m.Pairwise fun c d => c.1 < d.1

/-- Every listed offset lies below the array's size. -/
abbrev Memory.within (size : Nat) (m : Memory) : Prop := ∀ c ∈ m, c.1 < size

/-- VRAM[o] (R36): the byte listed there, or else the one drawn at creation (R271), which a run may fix
(log entries 9 and 10). -/
def State.vramByte (s : State) (o : Nat) : Byte :=
  (Memory.lookup s.vram o).getD (s.memFill.getD (Config.vramInit s.creation o))

/-- OAM[o] (R37), likewise. -/
def State.oamByte (s : State) (o : Nat) : Byte :=
  (Memory.lookup s.oam o).getD (s.memFill.getD (Config.oamInit s.creation o))

/-- The stored byte of a register. -/
def State.reg (s : State) : Reg → Byte
  | .lcdc => s.regs.lcdc
  | .scy  => s.regs.scy
  | .scx  => s.regs.scx
  | .ly   => s.regs.ly
  | .lyc  => s.regs.lyc
  | .bgp  => s.regs.bgp
  | .obp0 => s.regs.obp0
  | .obp1 => s.regs.obp1
  | .wy   => s.regs.wy
  | .wx   => s.regs.wx

/-- The register bank with one byte register stored. -/
def RegBank.set (r : RegBank) (n : Reg) (v : Byte) : RegBank :=
  match n with
  | .lcdc => { r with lcdc := v }
  | .scy  => { r with scy := v }
  | .scx  => { r with scx := v }
  | .ly   => { r with ly := v }
  | .lyc  => { r with lyc := v }
  | .bgp  => { r with bgp := v }
  | .obp0 => { r with obp0 := v }
  | .obp1 => { r with obp1 := v }
  | .wy   => { r with wy := v }
  | .wx   => { r with wx := v }

/-- Replace the register bank. -/
def State.setRegs (s : State) (r : RegBank) : State := { s with regs := r }

/-- Store a byte register, all eight bits. -/
def State.setReg (s : State) (n : Reg) (v : Byte) : State := s.setRegs (s.regs.set n v)

/-- Store STAT bits 7..3 from the same bits of `v`; bits 2..0 are ignored (R138). -/
def State.setStatHi (s : State) (v : Byte) : State := s.setRegs { s.regs with statHi := v.extractLsb' 3 5 }

/-- S.mode <- m (R23). -/
def State.setMode (s : State) (m : Mode) : State := { s with mode := m }

/-- S.clk <- n (R24). -/
def State.setClk (s : State) (n : Nat) : State := { s with clk := n }

/-- S.coinc <- b (R25). -/
def State.setCoinc (s : State) (b : Bool) : State := { s with coinc := b }

/-- Replace VRAM. -/
def State.setVram (s : State) (m : Memory) : State := { s with vram := m }

/-- Replace OAM. -/
def State.setOam (s : State) (m : Memory) : State := { s with oam := m }

/-- Replace the framebuffer. -/
def State.setFb (s : State) (f : Frame) : State := { s with fb := f }

/-- S.observer <- o (R26). -/
def State.setObserver (s : State) (o : Option ObserverRef) : State := { s with observer := o }

/-- What the call returns. -/
def State.ret (s : State) (r : Result) : State := { s with result := r }

/-- Append one output of the current call. -/
def State.put (s : State) (o : Output) : State := { s with outputs := s.outputs ++ [o] }

/-- emit E: append an event to the list of the current call (00_scope.md section 5). -/
def State.emit (s : State) (e : Event) : State := s.put (.event e)

/-- The next call begins: it leaves the queue, and its outputs and result start empty (log entries 1 and 4). -/
def State.beginCall (s : State) (rest : List HostCall) : State :=
  { s with calls := rest, outputs := [], result := .nothing }

/-- The event an output is, if it is one. -/
def Output.toEvent : Output → Option Event
  | .event e        => some e
  | .observerCall _ => none
  | .extRead _      => none

/-- The events among the outputs of the current call. -/
def State.events (s : State) : List Event := s.outputs.filterMap Output.toEvent

/-- Request an interrupt of the CPU collaborator (R242), the core's only act in place of a trap entry (R247);
with no CPU present the request is dropped (R245; log entry 5). -/
def State.requestIrq (s : State) (k : IrqKind) : State := if s.cfg.cpuPresent then s.emit (.irq k) else s

/-- Request an interrupt if its enable bit is set. -/
def State.requestIrqIf (s : State) (enable : Bool) (k : IrqKind) : State := if enable then s.requestIrq k else s

/-- FRAME_SINK (R230, R231): FRAME_COMPLETE, then a call of the observer if there is one. -/
def State.frameSink (s : State) : State :=
  match s.observer with
  | none   => s.emit .frameComplete
  | some o => (s.emit .frameComplete).put (.observerCall o)

/-- Arbitrated VRAM read by offset (R131, R134): 0x00 while blocked. -/
def State.readVram (s : State) (o : Nat) : Byte := if s.vramBlocked then 0x00 else s.vramByte o

/-- Arbitrated VRAM write by offset (R131, R135): dropped while blocked. -/
def State.writeVram (s : State) (o : Nat) (v : Byte) : State :=
  if s.vramBlocked then s else s.setVram (Memory.write s.vram o v)

/-- Arbitrated OAM read by offset (R132, R136): 0x00 while blocked. -/
def State.readOam (s : State) (o : Nat) : Byte := if s.oamBlocked then 0x00 else s.oamByte o

/-- Arbitrated OAM write by offset (R132, R143): dropped while blocked. -/
def State.writeOam (s : State) (o : Nat) (v : Byte) : State :=
  if s.oamBlocked then s else s.setOam (Memory.write s.oam o v)

/-- MemRead(addr, 1) of the renderers: the arbitrated read of a VRAM address (R130, R165). -/
def State.memRead (s : State) (addr : Nat) : Byte := s.readVram (addr - Config.vramBase)

/-- A read of an address the core does not serve: a LOG event and 0x00 (R145, R146). -/
def State.readUnrecognized (s : State) (a : Address) : State :=
  (s.emit (.log .readUnrecognized a)).ret (.byte 0x00)

/-- A write to an address the core does not decode: a LOG event, nothing stored (R147). -/
def State.writeUnrecognized (s : State) (a : Address) : State := s.emit (.log .writeUnrecognized a)

/-- The answer a run fixes for an external address, if it fixes one (log entry 11). -/
def extAnswer (m : List Host.Cell) (a : Nat) : Option Byte := Memory.lookup m a

/-- The byte ExtRead(a) gives: any byte (R174), the answer a run fixes or else a draw of the free value. -/
def State.extByte (s : State) (a : Nat) : Byte := (extAnswer s.extMem a).getD (Config.extByte s.extDraws a)

/-- One ExtRead is issued: it is put out and counted. -/
def State.countExtRead (s : State) (a : Nat) : State :=
  { s with outputs := s.outputs ++ [.extRead a], extDraws := s.extDraws + 1 }

/-- Row `y` of the framebuffer; a row outside it is blank (log entry 12). -/
def State.fbRow (s : State) (y : Nat) : Row :=
  if h : y < Config.screenHeight then s.fb[y] else Vector.replicate Config.screenWidth 0

/-- Write row `y` of the framebuffer; the framebuffer has no row outside 0..143 to write (log entry 12). -/
def State.setFbRow (s : State) (y : Nat) (r : Row) : State :=
  if h : y < Config.screenHeight then s.setFb (s.fb.set y r h) else s

/-- The shade index at row `y`, column `x`. -/
def Frame.pixel (f : Frame) (y x : Nat) : Shade :=
  if h : y < Config.screenHeight ∧ x < Config.screenWidth then (f[y]'h.1)[x]'h.2 else 0

/-- What the holder of a framebuffer view reads now: the live buffer, not a copy (R62, R232). -/
def State.viewPixel (s : State) (y x : Nat) : Shade := s.fb.pixel y x

/-- SHADE[i] (R234): the value the table gives a shade index, or for 1 and 2 the free value if none was injected
(log entry 15). -/
def shadeValue (t : ShadeTable) (i : Shade) : Byte :=
  if i = 0 then t.shade0
  else if i = 1 then t.shade1.getD Config.shade1
  else if i = 2 then t.shade2.getD Config.shade2
  else t.shade3

/-- What a host shows for a pixel of the view, through the SHADE table of the configuration (R234). No rule of the core
reads the table. -/
def State.displayPixel (s : State) (y x : Nat) : Byte := shadeValue s.cfg.shades (s.viewPixel y x)

end Sys2Proof.Machine
end

