-- ==== Sys2Proof/Machine/Dma.lean ====
section
/-! DEFINITION. The DMA register and the DMA transfer engine. -/

namespace Sys2Proof.Machine

/-- One turn of the copy loop (R61, R170): read `base + i`, then store OAM[i] directly, past the arbiter (R172). -/
def State.dmaByte (base : Nat) (s : State) (i : Nat) : State :=
  (s.countExtRead (base + i)).setOam (Memory.write s.oam i (s.extByte (base + i)))

/-- DMA_COPY(v) (R170): 160 bytes in ascending order; nothing without a memory collaborator (R171). -/
def State.dmaCopy (s : State) (v : Byte) : State :=
  if s.cfg.mmuPresent then (List.range Config.oamSize).foldl (State.dmaByte (v.toNat * 256)) s else s

/-- WRITE_DMA (R144): the copy, no register written. -/
def execWriteDma (v : Byte) (s : State) : Host.Outcome State Fault Refusal := .next (s.dmaCopy v)

/-- READ_DMA (R145): a read of an unrecognized address. -/
def execReadDma (s : State) : Host.Outcome State Fault Refusal := .next (s.readUnrecognized 0xFF46)

end Sys2Proof.Machine
end

