-- ==== Sys2Proof/Machine/Frame.lean ====
section
/-! DEFINITION. The framebuffer accessor and the registration of an observer. -/

namespace Sys2Proof.Machine

/-- GET_FRAMEBUFFER (R232): a view of the live buffer, nothing copied (log entry 14). -/
def execGetFramebuffer (s : State) : Host.Outcome State Fault Refusal := .next (s.ret .framebufferView)

/-- REGISTER_OBSERVER (R233): a second registration replaces the first (D16). -/
def execRegisterObserver (o : Option ObserverRef) (s : State) : Host.Outcome State Fault Refusal :=
  .next (s.setObserver o)

end Sys2Proof.Machine
end

