-- ==== Sys2Proof/Machine/RegisterBank.lean ====
section
/-! DEFINITION. READ and WRITE of the interface registers, but for the DMA trigger, and of unrecognized addresses. -/

namespace Sys2Proof.Machine

/-- READ_STAT (R137). -/
def execReadStat (s : State) : Host.Outcome State Fault Refusal := .next (s.ret (.byte s.statByte))

/-- WRITE_STAT (R138): only bits 7..3 are stored. -/
def execWriteStat (v : Byte) (s : State) : Host.Outcome State Fault Refusal := .next (s.setStatHi v)

/-- READ_LY (R139). -/
def execReadLy (s : State) : Host.Outcome State Fault Refusal := .next (s.ret (.byte (s.reg .ly)))

/-- WRITE_LY (R140): LY becomes 0 whatever the value; mode, clock and coincidence keep theirs (D18). -/
def execWriteLy (_v : Byte) (s : State) : Host.Outcome State Fault Refusal := .next (s.setReg .ly 0x00)

/-- READ_LCDC (R141). -/
def execReadLcdc (s : State) : Host.Outcome State Fault Refusal := .next (s.ret (.byte (s.reg .lcdc)))

/-- WRITE_LCDC (R142). -/
def execWriteLcdc (v : Byte) (s : State) : Host.Outcome State Fault Refusal := .next (s.setReg .lcdc v)

/-- READ_SCY (R148). -/
def execReadScy (s : State) : Host.Outcome State Fault Refusal := .next (s.ret (.byte (s.reg .scy)))

/-- WRITE_SCY (R149). -/
def execWriteScy (v : Byte) (s : State) : Host.Outcome State Fault Refusal := .next (s.setReg .scy v)

/-- READ_SCX (R150). -/
def execReadScx (s : State) : Host.Outcome State Fault Refusal := .next (s.ret (.byte (s.reg .scx)))

/-- WRITE_SCX (R151). -/
def execWriteScx (v : Byte) (s : State) : Host.Outcome State Fault Refusal := .next (s.setReg .scx v)

/-- READ_LYC (R152). -/
def execReadLyc (s : State) : Host.Outcome State Fault Refusal := .next (s.ret (.byte (s.reg .lyc)))

/-- WRITE_LYC (R153). -/
def execWriteLyc (v : Byte) (s : State) : Host.Outcome State Fault Refusal := .next (s.setReg .lyc v)

/-- READ_BGP (R154). -/
def execReadBgp (s : State) : Host.Outcome State Fault Refusal := .next (s.ret (.byte (s.reg .bgp)))

/-- WRITE_BGP (R155). -/
def execWriteBgp (v : Byte) (s : State) : Host.Outcome State Fault Refusal := .next (s.setReg .bgp v)

/-- READ_OBP0 (R156). -/
def execReadObp0 (s : State) : Host.Outcome State Fault Refusal := .next (s.ret (.byte (s.reg .obp0)))

/-- WRITE_OBP0 (R157). -/
def execWriteObp0 (v : Byte) (s : State) : Host.Outcome State Fault Refusal := .next (s.setReg .obp0 v)

/-- READ_OBP1 (R158). -/
def execReadObp1 (s : State) : Host.Outcome State Fault Refusal := .next (s.ret (.byte (s.reg .obp1)))

/-- WRITE_OBP1 (R159). -/
def execWriteObp1 (v : Byte) (s : State) : Host.Outcome State Fault Refusal := .next (s.setReg .obp1 v)

/-- READ_WY (R160). -/
def execReadWy (s : State) : Host.Outcome State Fault Refusal := .next (s.ret (.byte (s.reg .wy)))

/-- WRITE_WY (R161). -/
def execWriteWy (v : Byte) (s : State) : Host.Outcome State Fault Refusal := .next (s.setReg .wy v)

/-- READ_WX (R162). -/
def execReadWx (s : State) : Host.Outcome State Fault Refusal := .next (s.ret (.byte (s.reg .wx)))

/-- WRITE_WX (R163). -/
def execWriteWx (v : Byte) (s : State) : Host.Outcome State Fault Refusal := .next (s.setReg .wx v)

/-- READ_OTHER (R146). -/
def execReadOther (a : Address) (s : State) : Host.Outcome State Fault Refusal := .next (s.readUnrecognized a)

/-- WRITE_OTHER (R147): nothing is stored. -/
def execWriteOther (a : Address) (_v : Byte) (s : State) : Host.Outcome State Fault Refusal :=
  .next (s.writeUnrecognized a)

end Sys2Proof.Machine
end

