-- ==== Sys2Proof/Machine/Reset.lean ====
section
/-! DEFINITION. POWER_ON and PREBOOT. -/

namespace Sys2Proof.Machine

/-- What the run fixes of the memories the next POWER_ON creates (R271): the next image, or else nothing
(log entry 10). -/
def State.nextImage (s : State) : MemImage := s.memDraws.headD ⟨[], [], none⟩

/-- The core state created anew (R270), and the memories drawn anew (R271): this creation has a number of its own, by
which the free values `Config.vramInit` and `Config.oamInit` give every byte that the run does not fix. The
configuration, the queue of calls, the outputs and the external memory are not core state and stay. -/
def State.create (s : State) : State :=
  { s with
    mode     := .vblank
    clk      := 0
    coinc    := false
    regs     := RegBank.reset
    vram     := s.nextImage.vram
    oam      := s.nextImage.oam
    fb       := Frame.blank
    observer := none
    memFill  := s.nextImage.fill
    memDraws := s.memDraws.tail
    creation := s.creation + 1 }

/-- POWER_ON (R270). -/
def execPowerOn (s : State) : Host.Outcome State Fault Refusal := .next s.create

/-- The register bank after PREBOOT (R272): seven registers, nothing else. -/
def RegBank.preboot (r : RegBank) (c : Config) : RegBank :=
  { r with
    ly   := c.prebootLy
    scy  := c.prebootScy
    scx  := c.prebootScx
    lyc  := c.prebootLyc
    bgp  := c.prebootBgp
    obp0 := c.prebootObp0
    obp1 := c.prebootObp1 }

/-- PREBOOT (R272). -/
def execPreboot (s : State) : Host.Outcome State Fault Refusal := .next (s.setRegs (s.regs.preboot s.cfg))

end Sys2Proof.Machine
end

