-- ==== Sys2Proof/Machine/Background.lean ====
section
/-! DEFINITION. The background renderer. -/

namespace Sys2Proof.Machine

/-- The colour index of the background at line `y`, column `x` (R181 to R184). -/
def State.bgColour (s : State) (y x : Nat) : Shade :=
  let idx := s.memRead (mapAddress (s.lcdcBit 3) (bgTileRow s.regs.scy y) (bgTileCol s.regs.scx x))
  let a := bgTileAddress (s.lcdcBit 4) idx + 2 * bgPixelRow s.regs.scy y
  colourIndex (s.memRead a) (s.memRead (a + 1)) (bgBit s.regs.scx x)

/-- The shade the background renderer writes at line `y`, column `x`: through BGP (R185), or 0 when disabled (R186). -/
def State.bgShade (s : State) (y x : Nat) : Shade :=
  if s.lcdcBit 0 then palette s.regs.bgp (s.bgColour y x) else 0

/-- RENDER_BG_LINE (R180): every column of row LY. -/
def State.renderBgLine (s : State) : State :=
  s.setFbRow s.regs.ly.toNat (Vector.ofFn fun x => s.bgShade s.regs.ly.toNat x.val)

end Sys2Proof.Machine
end

