-- ==== Sys2Proof/Machine/Sprites.lean ====
section
/-! DEFINITION. The sprite renderer, in both orders between sprites. -/

namespace Sys2Proof.Machine

/-- OAM entry `n`, read directly (R76; D28). -/
def State.sprite (s : State) (n : Nat) : Sprite where
  y    := s.oamByte (4 * n)
  x    := s.oamByte (4 * n + 1)
  tile := s.oamByte (4 * n + 2)
  attr := s.oamByte (4 * n + 3)

/-- The sprite height selected by LCDC bit 2 (R201). -/
def State.spriteHeight (s : State) : Nat := if s.lcdcBit 2 then 16 else 8

/-- The sprite covers line `y` at the selected height (R203). -/
def State.onLine (s : State) (sp : Sprite) (y : Nat) : Bool := sp.covers s.spriteHeight y

/-- The colour index of pixel `px` of the sprite on line `y` (R204 to R206). -/
def State.spriteColour (s : State) (sp : Sprite) (y px : Nat) : Shade :=
  let a := spriteTileAddress (sp.tileFor s.spriteHeight) + 2 * sp.rowFor s.spriteHeight y
  colourIndex (s.memRead a) (s.memRead (a + 1)) (sp.bitFor px)

/-- The shade a nonzero colour index maps to (R207). -/
def State.spriteShade (s : State) (sp : Sprite) (c : Shade) : Shade :=
  palette (if sp.useObp1 then s.regs.obp1 else s.regs.obp0) c

/-- The shade a sprite pixel leaves over the shade already there (R208): behind the background it shows only over 0. -/
def Sprite.compose (sp : Sprite) (new old : Shade) : Shade :=
  if sp.behind then (if old = 0 then new else old) else new

/-- The sprite pixel at screen column `x`, where the sprite has one and it is not transparent (R206, R209). -/
def State.opaqueAt (s : State) (sp : Sprite) (y x : Nat) : Option Shade :=
  if sp.left ≤ x ∧ (x : Int) < sp.left + 8 then
    let c := s.spriteColour sp y ((x : Int) - sp.left).toNat
    if c = 0 then none else some c
  else none

/-- Draw pixel `px` of a sprite (R206 to R209): transparent and off-screen pixels write nothing. -/
def State.drawPixel (s : State) (sp : Sprite) (y : Nat) (row : Row) (px : Nat) : Row :=
  let c := s.spriteColour sp y px
  let x := sp.left + (px : Int)
  if c = 0 then row
  else if h : 0 ≤ x ∧ x.toNat < Config.screenWidth then
    row.set x.toNat (sp.compose (s.spriteShade sp c) (row[x.toNat]'h.2)) h.2
  else row

/-- Draw entry `n` over the row: its eight pixels from left to right, if it covers the line (R203). -/
def State.drawSprite (s : State) (y : Nat) (row : Row) (n : Nat) : Row :=
  if s.onLine (s.sprite n) y then (List.range 8).foldl (s.drawPixel (s.sprite n) y) row else row

/-- SPRITE_ORDER = oam_overwrite (R210): all 40 entries in ascending order. -/
def State.overwriteRow (s : State) (y : Nat) (row : Row) : Row :=
  (List.range Config.spriteCount).foldl (s.drawSprite y) row

/-- Entry `n` covers line `y` and has a nonzero colour index at column `x` (R211). -/
def State.candidate (s : State) (y x n : Nat) : Bool :=
  s.onLine (s.sprite n) y && (s.opaqueAt (s.sprite n) y x).isSome

/-- The better of the winner so far and entry `n`: the smaller X, and the earlier entry on a tie (R211). -/
def State.betterSprite (s : State) (y x : Nat) (best : Option Nat) (n : Nat) : Option Nat :=
  if s.candidate y x n then
    match best with
    | none   => some n
    | some b => if (s.sprite n).x.toNat < (s.sprite b).x.toNat then some n else some b
  else best

/-- The entry that may write column `x` under hw_priority (R211). -/
def State.winner (s : State) (y x : Nat) : Option Nat :=
  (List.range Config.spriteCount).foldl (s.betterSprite y x) none

/-- The shade of column `x` under hw_priority: the winner's, under R208, or the one already there. -/
def State.priorityShade (s : State) (y x : Nat) (old : Shade) : Shade :=
  match s.winner y x with
  | none   => old
  | some n =>
    let c := (s.opaqueAt (s.sprite n) y x).getD 0
    (s.sprite n).compose (s.spriteShade (s.sprite n) c) old

/-- SPRITE_ORDER = hw_priority (R211). -/
def State.priorityRow (s : State) (y : Nat) (row : Row) : Row :=
  Vector.ofFn fun x => s.priorityShade y x.val row[x]

/-- The sprite renderer draws nothing: the gate of LCDC bit 1 (R200; D12). -/
def State.spritesGated (s : State) : Bool := s.cfg.spriteEnableGated && !s.lcdcBit 1

/-- The row after the sprites of line `y`, in the configured order. -/
def State.spritesOver (s : State) (y : Nat) (row : Row) : Row :=
  match s.cfg.spriteOrder with
  | .oamOverwrite => s.overwriteRow y row
  | .hwPriority   => s.priorityRow y row

/-- RENDER_SPRITES_LINE (R200). -/
def State.renderSpritesLine (s : State) : State :=
  if s.spritesGated then s
  else s.setFbRow s.regs.ly.toNat (s.spritesOver s.regs.ly.toNat (s.fbRow s.regs.ly.toNat))

end Sys2Proof.Machine
end

