-- ==== Sys2Proof/Machine/Timing.lean ====
section
/-! DEFINITION. STEP: the timing state machine, under both step policies. -/

namespace Sys2Proof.Machine

/-- The threshold of a mode (R5, R280). -/
def modeThreshold (c : Config) : Mode → Nat
  | .oamSearch    => c.tOam
  | .vramTransfer => c.tVram
  | .hblank       => c.tHBlank
  | .vblank       => Config.tVBlankLine

/-- The threshold of the current mode. -/
def State.threshold (s : State) : Nat := modeThreshold s.cfg s.mode

/-- The current mode's window is over: its threshold leaves the clock, once (R111). -/
def State.spend (s : State) : State := s.setClk (s.clk - s.threshold)

/-- R.LY <- (R.LY + 1) & 0xFF. -/
def State.nextLine (s : State) : State := s.setReg .ly (s.regs.ly + 1)

/-- OAMSearch ends (R103). -/
def State.leaveOamSearch (s : State) : State := s.spend.setMode .vramTransfer

/-- VRAMTransfer ends (R104): HBlank first, then the background, the sprites, and the request if STAT bit 3 is set. -/
def State.leaveVramTransfer (s : State) : State :=
  let t := (s.spend.setMode .hblank).renderBgLine.renderSpritesLine
  t.requestIrqIf t.hblankIntEnable .lcdStat

/-- VBlank begins (R106): the frame sink, IRQ(VBlank), and IRQ(LCDSTAT) if STAT bit 4 is set. -/
def State.enterVBlank (s : State) : State :=
  let t := (s.setMode .vblank).frameSink.requestIrq .vblank
  t.requestIrqIf t.vblankIntEnable .lcdStat

/-- HBlank ends (R105, R106): the next line, in VBlank if it is line 144. -/
def State.leaveHBlank (s : State) : State :=
  let t := s.spend.nextLine
  if t.regs.ly = 144 then t.enterVBlank else t.setMode .oamSearch

/-- A VBlank line ends (R107): after line 153 the frame starts again. -/
def State.leaveVBlankLine (s : State) : State :=
  let t := s.spend.nextLine
  if t.regs.ly = 154 then (t.setMode .oamSearch).setReg .ly 0x00 else t

/-- What happens when the current mode's window is over. -/
def State.leaveMode (s : State) : State :=
  match s.mode with
  | .oamSearch    => s.leaveOamSearch
  | .vramTransfer => s.leaveVramTransfer
  | .hblank       => s.leaveHBlank
  | .vblank       => s.leaveVBlankLine

/-- The mode case of R100, evaluated once for the mode now current. -/
def State.modeCase (s : State) : State := if s.threshold ≤ s.clk then s.leaveMode else s

/-- The mode case evaluated until the current mode's threshold exceeds the clock (R112); each turn takes at least
one cycle off the clock (R5), so the clock bounds the number of turns (log entry 13). -/
def State.settle : Nat → State → State
  | 0, s     => s
  | n + 1, s => if s.threshold ≤ s.clk then State.settle n s.leaveMode else s

/-- Mode handling after the accumulation of R102, by STEP_POLICY. -/
def State.handleMode (s : State) : State :=
  match s.cfg.stepPolicy with
  | .single => s.modeCase
  | .loop   => State.settle s.clk s

/-- The coincidence flag and its request (R108, R109). -/
def State.compareLine (s : State) : State :=
  (s.setCoinc s.lyEqLyc).requestIrqIf (s.lyEqLyc && s.lycIntEnable) .lcdStat

/-- STEP with the display disabled (R101). -/
def State.stepDisabled (s : State) : State := ((s.setReg .ly 153).setMode .vblank).setClk Config.tVBlankLine

/-- STEP with the display enabled (R102 to R109). -/
def State.stepEnabled (s : State) (cycles : Nat) : State := (s.setClk (s.clk + cycles)).handleMode.compareLine

/-- STEP(cycles) (R100). -/
def execStep (cycles : Nat) (s : State) : Host.Outcome State Fault Refusal :=
  .next (if s.displayOn then s.stepEnabled cycles else s.stepDisabled)

end Sys2Proof.Machine
end

