-- ==== Sys2Proof/Machine/VideoMemory.lean ====
section
/-! DEFINITION. READ and WRITE of video memory and object memory. -/

namespace Sys2Proof.Machine

/-- READ_VRAM (R134). -/
def execReadVram (off : BitVec 13) (s : State) : Host.Outcome State Fault Refusal :=
  .next (s.ret (.byte (s.readVram off.toNat)))

/-- WRITE_VRAM (R135). -/
def execWriteVram (off : BitVec 13) (v : Byte) (s : State) : Host.Outcome State Fault Refusal :=
  .next (s.writeVram off.toNat v)

/-- READ_OAM_LO (R136). -/
def execReadOamLo (off : BitVec 7) (s : State) : Host.Outcome State Fault Refusal :=
  .next (s.ret (.byte (s.readOam off.toNat)))

/-- READ_OAM_HI (R136). -/
def execReadOamHi (off : BitVec 5) (s : State) : Host.Outcome State Fault Refusal :=
  .next (s.ret (.byte (s.readOam (oamHiOffset off))))

/-- WRITE_OAM_LO (R143). -/
def execWriteOamLo (off : BitVec 7) (v : Byte) (s : State) : Host.Outcome State Fault Refusal :=
  .next (s.writeOam off.toNat v)

/-- WRITE_OAM_HI (R143). -/
def execWriteOamHi (off : BitVec 5) (v : Byte) (s : State) : Host.Outcome State Fault Refusal :=
  .next (s.writeOam (oamHiOffset off) v)

end Sys2Proof.Machine
end

