-- ==== Sys2Proof/Machine/Dispatch.lean ====
section
/-! DEFINITION. One arm per constructor of Instr: one direct call of its meaning. -/

namespace Sys2Proof.Machine

def exec (i : Instr) (s : State) : Host.Outcome State Fault Refusal :=
  match i with
  | .readVram off => Sys2Proof.Machine.execReadVram off s
  | .writeVram off v => Sys2Proof.Machine.execWriteVram off v s
  | .readOamLo off => Sys2Proof.Machine.execReadOamLo off s
  | .readOamHi off => Sys2Proof.Machine.execReadOamHi off s
  | .writeOamLo off v => Sys2Proof.Machine.execWriteOamLo off v s
  | .writeOamHi off v => Sys2Proof.Machine.execWriteOamHi off v s
  | .readLcdc => Sys2Proof.Machine.execReadLcdc s
  | .writeLcdc v => Sys2Proof.Machine.execWriteLcdc v s
  | .readStat => Sys2Proof.Machine.execReadStat s
  | .writeStat v => Sys2Proof.Machine.execWriteStat v s
  | .readScy => Sys2Proof.Machine.execReadScy s
  | .writeScy v => Sys2Proof.Machine.execWriteScy v s
  | .readScx => Sys2Proof.Machine.execReadScx s
  | .writeScx v => Sys2Proof.Machine.execWriteScx v s
  | .readLy => Sys2Proof.Machine.execReadLy s
  | .writeLy v => Sys2Proof.Machine.execWriteLy v s
  | .readLyc => Sys2Proof.Machine.execReadLyc s
  | .writeLyc v => Sys2Proof.Machine.execWriteLyc v s
  | .readDma => Sys2Proof.Machine.execReadDma s
  | .writeDma v => Sys2Proof.Machine.execWriteDma v s
  | .readBgp => Sys2Proof.Machine.execReadBgp s
  | .writeBgp v => Sys2Proof.Machine.execWriteBgp v s
  | .readObp0 => Sys2Proof.Machine.execReadObp0 s
  | .writeObp0 v => Sys2Proof.Machine.execWriteObp0 v s
  | .readObp1 => Sys2Proof.Machine.execReadObp1 s
  | .writeObp1 v => Sys2Proof.Machine.execWriteObp1 v s
  | .readWy => Sys2Proof.Machine.execReadWy s
  | .writeWy v => Sys2Proof.Machine.execWriteWy v s
  | .readWx => Sys2Proof.Machine.execReadWx s
  | .writeWx v => Sys2Proof.Machine.execWriteWx v s
  | .readOther addr => Sys2Proof.Machine.execReadOther addr s
  | .writeOther addr v => Sys2Proof.Machine.execWriteOther addr v s
  | .step cycles => Sys2Proof.Machine.execStep cycles s
  | .preboot => Sys2Proof.Machine.execPreboot s
  | .powerOn => Sys2Proof.Machine.execPowerOn s
  | .registerObserver o => Sys2Proof.Machine.execRegisterObserver o s
  | .getFramebuffer => Sys2Proof.Machine.execGetFramebuffer s

end Sys2Proof.Machine
end

