-- ==== Sys2Proof/Machine/Step.lean ====
section
/-! DEFINITION. One step makes the oldest call of the queue; and placing a table word where the step takes its next call. -/

namespace Sys2Proof.Machine

/-- One step: the oldest call begins, is decoded and runs to completion (R7, R54). A call that spells no command is
refused (R80); with no call to make the core does nothing (R58; log entry 2). -/
def step (s : State) : Host.Outcome State Fault Refusal :=
  match s.calls with
  | []        => .next s
  | c :: rest =>
    match decode c with
    | .error e => .refused (.noSuchCommand e)
    | .ok i    => exec i (s.beginCall rest)

/-- The state whose next call is the given table word with an operand of zeros (log entries 1 and 21). -/
def State.withFetchWord (s : State) (_nbits w : Nat) : State := { s with calls := callOfTableWord w :: s.calls }

end Sys2Proof.Machine
end

