-- ==== Sys2Proof/Safety.lean ====
section
/-! DEFINITION. The terms claims are stated in: the invariant, the bound on the mode clock, the place in the frame, and the comparison that ends an enabled STEP, written out from its rules. -/

namespace Sys2Proof.Machine

/-- A memory image in canonical form, inside its arrays. -/
abbrev MemImage.wf (m : MemImage) : Prop :=
  Memory.wf m.vram ∧ Memory.within Config.vramSize m.vram ∧ Memory.wf m.oam ∧ Memory.within Config.oamSize m.oam

/-- Both memories, and every image still to be drawn, are in canonical form inside their arrays. -/
abbrev State.memoryOk (s : State) : Prop :=
  MemImage.wf ⟨s.vram, s.oam, s.memFill⟩ ∧ ∀ m ∈ s.memDraws, MemImage.wf m

/-- The scanline range of R110: LY in 0..153, and a visible line in every mode but VBlank. -/
abbrev State.lineOk (s : State) : Prop :=
  s.regs.ly.toNat ≤ 153 ∧ (s.mode ≠ .vblank → s.regs.ly.toNat ≤ 143)

/-- The configuration meets R5 and the premise of R110. -/
abbrev State.configOk (s : State) : Prop := s.cfg.ok ∧ s.cfg.prebootLy.toNat ≤ 143

/-- The invariant every step keeps. -/
abbrev State.Inv (s : State) : Prop := s.configOk ∧ s.memoryOk ∧ s.lineOk

/-- The source's invariant on the mode clock (R113). -/
abbrev State.clockOk (s : State) : Prop := s.clk < s.threshold

/-- A step length that R113 admits: no longer than any mode's window. -/
abbrev State.shortStep (s : State) (n : Nat) : Prop :=
  n ≤ s.cfg.tOam ∧ n ≤ s.cfg.tVram ∧ n ≤ s.cfg.tHBlank ∧ n ≤ Config.tVBlankLine

/-- The mode agrees with the line, and the clock is inside its window: the premise of R115, with no WRITE to LY. -/
abbrev State.onSchedule (s : State) : Prop :=
  s.regs.ly.toNat ≤ 153 ∧ (s.mode = .vblank ↔ 144 ≤ s.regs.ly.toNat) ∧ s.clockOk

/-- The cycles of a line that come before a mode (R280). -/
def modeOffset (c : Config) : Mode → Nat
  | .oamSearch    => 0
  | .vramTransfer => c.tOam
  | .hblank       => c.tOam + c.tVram
  | .vblank       => 0

/-- How many cycles of the frame have passed (R115). -/
def State.framePos (s : State) : Nat := s.regs.ly.toNat * 456 + modeOffset s.cfg s.mode + s.clk

/-- What the comparison at the end of an enabled STEP makes of a state, from R108, R109 and R245. -/
def State.compared (s : State) : State :=
  { s with
    coinc   := decide (s.regs.ly = s.regs.lyc)
    outputs := s.outputs ++
      (if s.regs.ly = s.regs.lyc ∧ s.regs.statHi.getLsbD 3 = true ∧ s.cfg.cpuPresent = true
       then [.event (.irq .lcdStat)] else []) }

/-- The requests a list of interrupt kinds makes: none without a CPU (R245). -/
def irqs (c : Config) (ks : List IrqKind) : List Output :=
  if c.cpuPresent then ks.map fun k => .event (.irq k) else []

/-- The mode case evaluated `k` times, each time for the mode then current. -/
def State.transitions : Nat → State → State
  | 0, s     => s
  | k + 1, s => State.transitions k s.modeCase

/-- How often an output occurs among those of the current call. -/
def State.outputCount (s : State) (o : Output) : Nat := s.outputs.count o

/-- An output is an interrupt request. -/
def Output.isIrq : Output → Bool
  | .event (.irq _) => true
  | .event .frameComplete | .event (.log _ _) | .observerCall _ | .extRead _ => false

end Sys2Proof.Machine
end

