-- ==== Sys2Proof/Certificates/Slice0/Obligations.lean ====
section
/-! DEFINITION. The statements about the core, for the provers. -/

open Sys2Proof Sys2Proof.Machine

/-! ### Encoding -/

/-- Every well-formed instruction is what its own encoding decodes to, whatever its operands (R70 to R73). The command
words are the spec's own decision D1. -/
def Obligations.DecodeOfEncode : Prop :=
  ∀ i : Instr, i.wellFormed = true → decode (encode i) = .ok i

/-- A call that decodes is the encoding of the instruction it decodes to, so each command has one spelling, and the
catch-all rows hold only addresses outside the map (R70 to R73, R80). The command words are the spec's own decision
D1, and that an operand of the wrong kind decodes to nothing is the model's choice (log entry 3). -/
def Obligations.EncodeOfDecode : Prop :=
  ∀ (c : HostCall) (i : Instr), decode c = .ok i → encode i = c ∧ i.wellFormed = true

/-- A call decodes to an instruction only if its word matches that instruction's row of the opcode table (R72). The
table is the spec's own decision D1. -/
def Obligations.DecodedWordMatchesTableRow : Prop :=
  ∀ (c : HostCall) (i : Instr), decode c = .ok i → c.word &&& i.row.mask = i.row.pattern

/-- Within READ and WRITE every address is legal (R81, R240). The command words are the spec's own decision D1. -/
def Obligations.EveryReadAndWriteAddressDecodes : Prop :=
  ∀ (a : Address) (v : Byte),
    (∃ i, decode ⟨BitVec.ofNat 20 a.toNat, .none⟩ = .ok i) ∧
    (∃ i, decode ⟨BitVec.ofNat 20 (0x10000 + a.toNat), .value v.toNat⟩ = .ok i)

/-- A reserved class, a nonzero address field outside READ and WRITE, and a WRITE value above 255 are refused (R73, R80).
The refusals are the spec's own decisions D1 and D17; that a refused call stops the step is the model's choice (log
entry 26). -/
def Obligations.CallsThatSpellNoCommandAreRefused : Prop :=
  ∀ (s : State) (c : HostCall) (rest : List HostCall), s.calls = c :: rest →
    (7 ≤ c.word.toNat / 0x10000 ∨
     (2 ≤ c.word.toNat / 0x10000 ∧ c.word.toNat % 0x10000 ≠ 0) ∨
     (c.word.toNat / 0x10000 = 1 ∧ ∃ v, c.operand = .value v ∧ 255 < v)) →
    ∃ e, step s = .refused (.noSuchCommand e)

/-- Words written out from the encodings of the spec decode to the commands they stand for (L2.1). The command words
are the spec's own decision D1. -/
def Obligations.SampleWordsDecode : Prop :=
  decode ⟨0x08010#20, .none⟩ = .ok (.readVram 0x0010#13) ∧
  decode ⟨0x0FE9F#20, .none⟩ = .ok (.readOamHi 31#5) ∧
  decode ⟨0x0FEA0#20, .none⟩ = .ok (.readOther 0xFEA0#16) ∧
  decode ⟨0x1FF44#20, .value 0x77⟩ = .ok (.writeLy 0x77#8) ∧
  decode ⟨0x0FF46#20, .none⟩ = .ok .readDma ∧
  decode ⟨0x20000#20, .cycles 4⟩ = .ok (.step 4) ∧
  decode ⟨0x30000#20, .none⟩ = .ok .preboot ∧
  decode ⟨0x60000#20, .none⟩ = .ok .getFramebuffer

/-! ### The step -/

/-- A step takes the oldest call from the queue, starts its outputs and result empty, and is the meaning of the
instruction the call decodes to. The queue, the outputs and the result are the model's (log entries 1 and 4). -/
def Obligations.StepRunsTheDecodedCall : Prop :=
  ∀ (s : State) (c : HostCall) (rest : List HostCall) (i : Instr), s.calls = c :: rest → decode c = .ok i →
    step s = exec i { s with calls := rest, outputs := [], result := .nothing }

/-- With no call to make the core does nothing. The model's choice (log entry 2), from "no background work" of R58. -/
def Obligations.IdleStepChangesNothing : Prop :=
  ∀ s : State, s.calls = [] → step s = .next s

/-- A table word placed with `withFetchWord` is what the very next step runs, the queue behind it unchanged. The queue
is the model's (log entries 1 and 21). -/
def Obligations.PlacedWordRunsNext : Prop :=
  ∀ (s : State) (nbits w : Nat) (i : Instr), decodeTableWord nbits w = some i →
    step (s.withFetchWord nbits w) = exec i { s with outputs := [], result := .nothing }

/-- No command faults or is refused: every instruction completes from every state (R240). -/
def Obligations.EveryCommandCompletes : Prop :=
  ∀ (i : Instr) (s : State), ∃ t, exec i s = .next t

/-! ### Register bank -/

/-- Each byte register reads as it is stored, and a read changes nothing but the byte returned
(R139, R141, R148, R150, R152, R154, R156, R158, R160, R162). -/
def Obligations.ByteRegisterReadsReturnTheStoredByte : Prop :=
  ∀ s : State,
    exec .readLcdc s = .next { s with result := .byte s.regs.lcdc } ∧
    exec .readScy s = .next { s with result := .byte s.regs.scy } ∧
    exec .readScx s = .next { s with result := .byte s.regs.scx } ∧
    exec .readLy s = .next { s with result := .byte s.regs.ly } ∧
    exec .readLyc s = .next { s with result := .byte s.regs.lyc } ∧
    exec .readBgp s = .next { s with result := .byte s.regs.bgp } ∧
    exec .readObp0 s = .next { s with result := .byte s.regs.obp0 } ∧
    exec .readObp1 s = .next { s with result := .byte s.regs.obp1 } ∧
    exec .readWy s = .next { s with result := .byte s.regs.wy } ∧
    exec .readWx s = .next { s with result := .byte s.regs.wx }

/-- Each plain register is stored with all eight bits, and nothing else changes
(R142, R149, R151, R153, R155, R157, R159, R161, R163). -/
def Obligations.ByteRegisterWritesStoreAllBits : Prop :=
  ∀ (s : State) (v : Byte),
    exec (.writeLcdc v) s = .next { s with regs := { s.regs with lcdc := v } } ∧
    exec (.writeScy v) s = .next { s with regs := { s.regs with scy := v } } ∧
    exec (.writeScx v) s = .next { s with regs := { s.regs with scx := v } } ∧
    exec (.writeLyc v) s = .next { s with regs := { s.regs with lyc := v } } ∧
    exec (.writeBgp v) s = .next { s with regs := { s.regs with bgp := v } } ∧
    exec (.writeObp0 v) s = .next { s with regs := { s.regs with obp0 := v } } ∧
    exec (.writeObp1 v) s = .next { s with regs := { s.regs with obp1 := v } } ∧
    exec (.writeWy v) s = .next { s with regs := { s.regs with wy := v } } ∧
    exec (.writeWx v) s = .next { s with regs := { s.regs with wx := v } }

/-- A WRITE to LY sets it to 0 whatever the value; mode, clock, coincidence and all else keep theirs (R140, D18). That
mode and clock stay is the spec's decision D18. -/
def Obligations.LyWriteResetsTheLine : Prop :=
  ∀ (s : State) (v : Byte), exec (.writeLy v) s = .next { s with regs := { s.regs with ly := 0x00 } }

/-- READ_STAT returns the stored bits 7..3, the coincidence flag in bit 2 and in bits 1..0 the code of the mode, which
is the configuration's code for that mode; by default 0 in HBlank, 1 in VBlank, 2 in OAMSearch and 3 in VRAMTransfer
(R137, R30). The default codes are the spec's decision D4 (log entry 16). -/
def Obligations.StatReadsStoredBitsFlagAndMode : Prop :=
  ∀ s : State, ∃ b : Byte, exec .readStat s = .next { s with result := .byte b } ∧
    b.toNat = s.regs.statHi.toNat * 8 + (if s.coinc then 4 else 0) +
      (match s.mode with
        | .hblank       => s.cfg.modeCodes.hblank
        | .vblank       => s.cfg.modeCodes.vblank
        | .oamSearch    => s.cfg.modeCodes.oamSearch
        | .vramTransfer => s.cfg.modeCodes.vramTransfer).toNat ∧
    (s.cfg.modeCodes = Config.default.modeCodes → b.toNat % 4 =
      match s.mode with
        | .hblank       => 0
        | .vblank       => 1
        | .oamSearch    => 2
        | .vramTransfer => 3)

/-- WRITE_STAT changes no flag and no mode: a STAT read after it gives the upper five bits written and the lower three
bits as before (R138). That bit 7 is stored is the spec's decision D13. -/
def Obligations.StatWriteKeepsTheLowThreeBits : Prop :=
  ∀ (s : State) (v : Byte), ∃ h : BitVec 5,
    exec (.writeStat v) s = .next { s with regs := { s.regs with statHi := h } } ∧
    ∃ before after : Byte,
      exec .readStat s = .next { s with result := .byte before } ∧
      exec .readStat { s with regs := { s.regs with statHi := h } } =
        .next { s with regs := { s.regs with statHi := h }, result := .byte after } ∧
      after.toNat = v.toNat / 8 * 8 + before.toNat % 8

/-- A READ of the DMA register or of an unrecognized address returns 0x00 and logs it; a WRITE to an unrecognized
address is dropped and logged; nothing else changes (R145, R146, R147). The READ of DMA and the set of unrecognized
addresses are the spec's decisions D14 and D25. -/
def Obligations.UnservedAccessesAreLogged : Prop :=
  ∀ (s : State) (a : Address) (v : Byte),
    exec .readDma s = .next { s with
      result := .byte 0x00, outputs := s.outputs ++ [.event (.log .readUnrecognized 0xFF46#16)] } ∧
    exec (.readOther a) s = .next { s with
      result := .byte 0x00, outputs := s.outputs ++ [.event (.log .readUnrecognized a)] } ∧
    exec (.writeOther a v) s = .next { s with outputs := s.outputs ++ [.event (.log .writeUnrecognized a)] }

/-- Only an access to an address the core does not serve is logged; a blocked access is not (R164, R241, R145 to R147).
The log event is the spec's decision D23. -/
def Obligations.OnlyUnservedAccessesAreLogged : Prop :=
  ∀ (i : Instr) (s t : State) (k : LogKind) (a : Address), exec i s = .next t → s.outputs = [] →
    (.event (.log k a) ∈ t.outputs ↔
      (i = .readOther a ∧ k = .readUnrecognized) ∨
      (i = .readDma ∧ a = 0xFF46#16 ∧ k = .readUnrecognized) ∨
      (∃ v, i = .writeOther a v ∧ k = .writeUnrecognized))

/-! ### Memories and arbiters -/

/-- The VRAM arbiter: blocked exactly while LCDC bit 7 is 1 and the mode is VRAMTransfer, read live at the access;
a blocked read gives 0x00, a blocked write is dropped, and an access that is not blocked reads or stores its one byte,
whatever each byte of VRAM is (R131). -/
def Obligations.VramArbiter : Prop :=
  ∀ (s : State) (off : BitVec 13) (v : Byte),
    (s.regs.lcdc.getLsbD 7 = true ∧ s.mode = .vramTransfer →
      exec (.readVram off) s = .next { s with result := .byte 0x00 } ∧ exec (.writeVram off v) s = .next s) ∧
    (¬ (s.regs.lcdc.getLsbD 7 = true ∧ s.mode = .vramTransfer) →
      exec (.readVram off) s = .next { s with result := .byte (s.vramByte off.toNat) } ∧
      ∃ m : Memory, exec (.writeVram off v) s = .next { s with vram := m } ∧
        ∀ o, State.vramByte { s with vram := m } o = if o = off.toNat then v else s.vramByte o)

/-- The OAM arbiter for both address rows of each command: blocked exactly while LCDC bit 7 is 1 and the mode is
OAMSearch or VRAMTransfer, whatever each byte of OAM is (R132, R136, R143). -/
def Obligations.OamArbiter : Prop :=
  ∀ (s : State) (lo : BitVec 7) (hi : BitVec 5) (v : Byte),
    (s.regs.lcdc.getLsbD 7 = true ∧ (s.mode = .oamSearch ∨ s.mode = .vramTransfer) →
      exec (.readOamLo lo) s = .next { s with result := .byte 0x00 } ∧
      exec (.readOamHi hi) s = .next { s with result := .byte 0x00 } ∧
      exec (.writeOamLo lo v) s = .next s ∧ exec (.writeOamHi hi v) s = .next s) ∧
    (¬ (s.regs.lcdc.getLsbD 7 = true ∧ (s.mode = .oamSearch ∨ s.mode = .vramTransfer)) →
      exec (.readOamLo lo) s = .next { s with result := .byte (s.oamByte lo.toNat) } ∧
      exec (.readOamHi hi) s = .next { s with result := .byte (s.oamByte (128 + hi.toNat)) } ∧
      (∃ m : Memory, exec (.writeOamLo lo v) s = .next { s with oam := m } ∧
        ∀ o, State.oamByte { s with oam := m } o = if o = lo.toNat then v else s.oamByte o) ∧
      (∃ m : Memory, exec (.writeOamHi hi v) s = .next { s with oam := m } ∧
        ∀ o, State.oamByte { s with oam := m } o = if o = 128 + hi.toNat then v else s.oamByte o))

/-! ### DMA -/

/-- DMA_COPY reads the 160 bytes of the page in ascending order, stores them in OAM[0..159] in that order, and changes
nothing else (R170, R61). Each byte is the answer a run fixes for its address, or a draw of the free value, whatever
that is (R174, log entry 11). -/
def Obligations.DmaCopiesOnePage : Prop :=
  ∀ (s : State) (v : Byte), s.cfg.mmuPresent = true →
    ∃ m : Memory,
      exec (.writeDma v) s = .next { s with
        oam := m
        outputs := s.outputs ++ (List.range 160).map fun i => .extRead (v.toNat * 256 + i)
        extDraws := s.extDraws + 160 } ∧
      (∀ i, i < 160 → State.oamByte { s with oam := m } i =
        (extAnswer s.extMem (v.toNat * 256 + i)).getD (Config.extByte (s.extDraws + i) (v.toNat * 256 + i))) ∧
      (∀ o, 160 ≤ o → State.oamByte { s with oam := m } o = s.oamByte o)

/-- With no external memory reader DMA_COPY issues no read and leaves OAM, and everything else, unchanged (R171). The
spec's decision D15. -/
def Obligations.DmaWithoutMemoryIsNoOp : Prop :=
  ∀ (s : State) (v : Byte), s.cfg.mmuPresent = false → exec (.writeDma v) s = .next s

/-- DMA is not gated: in OAMSearch and VRAMTransfer with the display enabled a host WRITE to OAM is dropped, and a DMA
copy takes effect all the same (R172). Each byte copied is the answer a run fixes for its address, or a draw of the free
value, which is the model's choice (log entry 11). -/
def Obligations.DmaWritesBehindTheArbiter : Prop :=
  ∀ (s : State) (v : Byte), s.cfg.mmuPresent = true → s.regs.lcdc.getLsbD 7 = true →
    (s.mode = .oamSearch ∨ s.mode = .vramTransfer) →
    (∀ (lo : BitVec 7) (hi : BitVec 5) (w : Byte),
      exec (.writeOamLo lo w) s = .next s ∧ exec (.writeOamHi hi w) s = .next s) ∧
    ∃ t, exec (.writeDma v) s = .next t ∧ t.mode = s.mode ∧ ∀ i, i < 160 → t.oamByte i =
      (extAnswer s.extMem (v.toNat * 256 + i)).getD (Config.extByte (s.extDraws + i) (v.toNat * 256 + i))

/-! ### Creation, PREBOOT, frame sink -/

/-- POWER_ON creates the core state anew, with some contents of the two memories; they are the image a run gives for it
where it gives one, and else every byte is the free value of this creation, whatever that is (R270, R271). The
configuration, the queue, the outputs and the external memory are not core state. The values are the spec's decision D8;
the free values, their count and the images are the model's (log entries 9 and 10). -/
def Obligations.PowerOnCreatesTheCoreState : Prop :=
  ∀ s : State, ∃ m : MemImage,
    exec .powerOn s = .next { s with
      mode := .vblank, clk := 0, coinc := false
      regs := { lcdc := 0x00, statHi := 0, scy := 0x00, scx := 0x00, ly := 0x00, lyc := 0x00,
                bgp := 0x00, obp0 := 0x00, obp1 := 0x00, wy := 0x00, wx := 0x00 }
      vram := m.vram, oam := m.oam
      fb := Vector.replicate 144 (Vector.replicate 160 0), observer := none
      memFill := m.fill, memDraws := s.memDraws.tail, creation := s.creation + 1 } ∧
    (∀ img rest, s.memDraws = img :: rest → m = img) ∧
    (s.memDraws = [] → ∀ t, exec .powerOn s = .next t → ∀ o,
      t.vramByte o = Config.vramInit (s.creation + 1) o ∧ t.oamByte o = Config.oamInit (s.creation + 1) o)

/-- The state right after reset is a created one: mode VBlank, clock 0, every register 0, no observer, a blank
framebuffer, STAT reads 0x01, and every memory byte is a draw: the free value of its creation, whatever that
is; a POWER_ON from it gives the same state but for the next creation's draws (R270, R271). The values are the spec's
decisions D8 and D4; the free values and the count of creations are the model's (log entries 9 and 10). -/
def Obligations.ResetIsTheCreatedState : Prop :=
  exec .powerOn State.reset = .next { State.reset with creation := State.reset.creation + 1 } ∧
  State.reset.mode = .vblank ∧ State.reset.clk = 0 ∧ State.reset.coinc = false ∧ State.reset.observer = none ∧
  (∀ r : Reg, State.reset.reg r = 0x00) ∧
  (∀ y x, State.reset.viewPixel y x = 0) ∧
  (∀ o, State.reset.vramByte o = Config.vramInit State.reset.creation o ∧
    State.reset.oamByte o = Config.oamInit State.reset.creation o) ∧
  exec .readStat State.reset = .next { State.reset with result := .byte 0x01 }

/-- PREBOOT stores its seven registers from the configuration and changes nothing else; the default configuration has
the values the spec lists (R272). The defaults are the spec's decision D9. -/
def Obligations.PrebootSetsSevenRegisters : Prop :=
  (∀ s : State, exec .preboot s = .next { s with
    regs := { s.regs with
      ly := s.cfg.prebootLy, scy := s.cfg.prebootScy, scx := s.cfg.prebootScx, lyc := s.cfg.prebootLyc
      bgp := s.cfg.prebootBgp, obp0 := s.cfg.prebootObp0, obp1 := s.cfg.prebootObp1 } }) ∧
  Config.default.prebootLy = 0x00 ∧ Config.default.prebootScy = 0x00 ∧ Config.default.prebootScx = 0x00 ∧
  Config.default.prebootLyc = 0x00 ∧ Config.default.prebootBgp = 0xFC ∧
  Config.default.prebootObp0 = 0xFF ∧ Config.default.prebootObp1 = 0xFF

/-- REGISTER_OBSERVER stores the observer, replacing any earlier one, and GET_FRAMEBUFFER returns the view of the live
buffer; neither changes anything else (R232, R233). That a second observer replaces the first is the spec's decision
D16; the view is a token (log entry 14). -/
def Obligations.FrameAccessCommands : Prop :=
  ∀ (s : State) (o : Option ObserverRef),
    exec (.registerObserver o) s = .next { s with observer := o } ∧
    exec .getFramebuffer s = .next { s with result := .framebufferView }

/-! ### STEP -/

/-- With the display disabled any STEP gives LY 153, mode VBlank, clock T_VBLANK_LINE, and nothing else (R101). -/
def Obligations.DisabledStepForcesVBlank : Prop :=
  ∀ (s : State) (n : Nat), s.regs.lcdc.getLsbD 7 = false →
    exec (.step n) s = .next { s with mode := .vblank, clk := 456, regs := { s.regs with ly := 153 } }

/-- With the display enabled a STEP adds its cycles, handles the mode, and then, on every such STEP and under either
policy, sets the coincidence flag from LY = LYC and requests IRQ(LCDSTAT) if it is set and STAT bit 6 is 1
(R108, R109). That a request without a CPU (R245) is dropped unrecorded is the model's reading (log entry 5). -/
def Obligations.EnabledStepEndsWithTheComparison : Prop :=
  ∀ (s : State) (n : Nat), s.regs.lcdc.getLsbD 7 = true →
    exec (.step n) s = .next (State.handleMode { s with clk := s.clk + n }).compared

/-- While the current mode's window is not over a STEP only advances the clock before it compares, in every mode and
under either policy (R102 to R107). That a request of the comparison without a CPU (R245) is dropped unrecorded is the
model's reading (log entry 5). -/
def Obligations.StepInsideTheWindowOnlyCounts : Prop :=
  ∀ (s : State) (n : Nat), s.regs.lcdc.getLsbD 7 = true → s.clk + n < s.threshold →
    exec (.step n) s = .next (State.compared { s with clk := s.clk + n })

/-- OAMSearch ends: VRAMTransfer begins, no event of its own; below the threshold only the clock changes; then the
comparison (R103). That a request of the comparison without a CPU (R245) is dropped unrecorded is the model's reading
(log entry 5). -/
def Obligations.OamSearchStep : Prop :=
  ∀ (s : State) (n : Nat), s.regs.lcdc.getLsbD 7 = true → s.cfg.stepPolicy = .single → s.mode = .oamSearch →
    (s.cfg.tOam ≤ s.clk + n → exec (.step n) s =
      .next (State.compared { s with clk := s.clk + n - s.cfg.tOam, mode := .vramTransfer })) ∧
    (s.clk + n < s.cfg.tOam → exec (.step n) s = .next (State.compared { s with clk := s.clk + n }))

/-- VRAMTransfer ends: HBlank begins, then the background and the sprites of line LY are rendered, in that order and in
HBlank, then IRQ(LCDSTAT) is requested if STAT bit 3 is 1; then the comparison (R104). The order is the spec's decision
D19; that a request without a CPU (R245) is dropped unrecorded is the model's reading (log entry 5). -/
def Obligations.VramTransferStep : Prop :=
  ∀ (s : State) (n : Nat), s.regs.lcdc.getLsbD 7 = true → s.cfg.stepPolicy = .single → s.mode = .vramTransfer →
    s.cfg.tVram ≤ s.clk + n → exec (.step n) s =
      .next (State.compared { s with
        clk := s.clk + n - s.cfg.tVram, mode := .hblank
        fb := (State.renderSpritesLine (State.renderBgLine
          { s with clk := s.clk + n - s.cfg.tVram, mode := .hblank })).fb
        outputs := s.outputs ++ (if s.regs.statHi.getLsbD 0 then irqs s.cfg [.lcdStat] else []) })

/-- HBlank ends before the last visible line: the next line begins in OAMSearch, no event of its own, whatever STAT
bit 5 holds; then the comparison (R105). That OAMSearch entry requests nothing is the spec's decision D20; that a
request of the comparison without a CPU (R245) is dropped unrecorded is the model's reading (log entry 5). -/
def Obligations.HBlankStepToTheNextLine : Prop :=
  ∀ (s : State) (n : Nat), s.regs.lcdc.getLsbD 7 = true → s.cfg.stepPolicy = .single → s.mode = .hblank →
    s.cfg.tHBlank ≤ s.clk + n → s.regs.ly ≠ 143 → exec (.step n) s =
      .next (State.compared { s with
        clk := s.clk + n - s.cfg.tHBlank, mode := .oamSearch, regs := { s.regs with ly := s.regs.ly + 1 } })

/-- HBlank of line 143 ends: VBlank begins; FRAME_COMPLETE and the call of the observer if there is one, IRQ(VBlank)
whatever STAT holds, then IRQ(LCDSTAT) if STAT bit 4 is 1; then the comparison (R106, R230). That a request without a
CPU (R245) is dropped unrecorded is the model's reading (log entry 5). -/
def Obligations.HBlankStepToVBlank : Prop :=
  ∀ (s : State) (n : Nat), s.regs.lcdc.getLsbD 7 = true → s.cfg.stepPolicy = .single → s.mode = .hblank →
    s.cfg.tHBlank ≤ s.clk + n → s.regs.ly = 143 → exec (.step n) s =
      .next (State.compared { s with
        clk := s.clk + n - s.cfg.tHBlank, mode := .vblank, regs := { s.regs with ly := 144 }
        outputs := s.outputs ++ [.event .frameComplete] ++ s.observer.toList.map Output.observerCall ++
          irqs s.cfg [.vblank] ++ (if s.regs.statHi.getLsbD 1 then irqs s.cfg [.lcdStat] else []) })

/-- A VBlank line ends: the next line, or the first OAMSearch of the frame after line 153, no event of its own; then the
comparison (R107). That a request of the comparison without a CPU (R245) is dropped unrecorded is the model's reading
(log entry 5). -/
def Obligations.VBlankStep : Prop :=
  ∀ (s : State) (n : Nat), s.regs.lcdc.getLsbD 7 = true → s.cfg.stepPolicy = .single → s.mode = .vblank →
    456 ≤ s.clk + n →
    (s.regs.ly ≠ 153 → exec (.step n) s =
      .next (State.compared { s with clk := s.clk + n - 456, regs := { s.regs with ly := s.regs.ly + 1 } })) ∧
    (s.regs.ly = 153 → exec (.step n) s =
      .next (State.compared { s with
        clk := s.clk + n - 456, mode := .oamSearch, regs := { s.regs with ly := 0 } }))

/-- Under the single policy one STEP takes at most one threshold off the clock, so a long one leaves the clock behind
(R111). -/
def Obligations.OneThresholdPerSingleStep : Prop :=
  ∀ (s : State) (n : Nat), s.regs.lcdc.getLsbD 7 = true → s.cfg.stepPolicy = .single →
    ∃ t, exec (.step n) s = .next t ∧
      t.clk = if s.threshold ≤ s.clk + n then s.clk + n - s.threshold else s.clk + n

/-- Under the loop policy the mode case is evaluated again and again, each time for the mode then current, exactly until
that mode's threshold exceeds the clock; then the comparison runs once (R112). The loop policy is the spec's decision
D10; that a request without a CPU (R245) is dropped unrecorded is the model's reading (log entry 5). -/
def Obligations.LoopStepRunsUntilTheClockIsInside : Prop :=
  ∀ (s : State) (n : Nat), s.cfg.ok → s.regs.lcdc.getLsbD 7 = true → s.cfg.stepPolicy = .loop →
    ∃ k, exec (.step n) s = .next (State.transitions k { s with clk := s.clk + n }).compared ∧
      (State.transitions k { s with clk := s.clk + n }).clockOk ∧
      ∀ j, j < k → ¬ (State.transitions j { s with clk := s.clk + n }).clockOk

/-- The mode clock stays below its threshold over a STEP no longer than any window (single policy), and is so after
every enabled STEP under the loop policy; after a disabled STEP it equals the threshold (R113). The spec derives it. -/
def Obligations.ModeClockBound : Prop :=
  ∀ (s : State) (n : Nat), s.cfg.ok →
    (s.regs.lcdc.getLsbD 7 = true → s.cfg.stepPolicy = .single → s.clockOk → s.shortStep n →
      ∃ t, exec (.step n) s = .next t ∧ t.clockOk) ∧
    (s.regs.lcdc.getLsbD 7 = true → s.cfg.stepPolicy = .loop → ∃ t, exec (.step n) s = .next t ∧ t.clockOk) ∧
    (s.regs.lcdc.getLsbD 7 = false → ∃ t, exec (.step n) s = .next t ∧ t.clk = t.threshold)

/-- The frame period: on schedule, every STEP no longer than a window moves the place in the frame on by exactly its
cycles, modulo 70224, and stays on schedule (R115). The spec derives it. -/
def Obligations.StepAdvancesThePlaceInTheFrame : Prop :=
  ∀ (s : State) (n : Nat), s.cfg.ok → s.regs.lcdc.getLsbD 7 = true → s.cfg.stepPolicy = .single →
    s.onSchedule → s.shortStep n →
    ∃ t, exec (.step n) s = .next t ∧ t.onSchedule ∧ t.framePos = (s.framePos + n) % 70224

/-- Enabling the display after a disabled STEP starts line 0 at the next STEP, with its cycles on the clock: under the
single policy for any number of cycles, under the loop policy for fewer than T_OAM, since with more the loop goes on
(R116, R112). The spec derives it. -/
def Obligations.ReEnablingStartsTheFrame : Prop :=
  ∀ (s : State) (m n : Nat) (v : Byte), s.regs.lcdc.getLsbD 7 = false → v.getLsbD 7 = true →
    s.cfg.stepPolicy = .single ∨ n < s.cfg.tOam →
    ∃ a b c, exec (.step m) s = .next a ∧ exec (.writeLcdc v) a = .next b ∧ exec (.step n) b = .next c ∧
      c.mode = .oamSearch ∧ c.regs.ly = 0 ∧ c.clk = n ∧ c.coinc = decide (s.regs.lyc = 0)

/-! ### Interrupt requests -/

/-- IRQ(VBlank) is requested once by each HBlank-to-VBlank transition, whatever STAT holds, and by nothing else (R243):
an enabled STEP makes transitions, one at most under the single policy and under the loop policy until the clock is
inside its window, and requests it as often as one of them leaves the HBlank of line 143; without a CPU, never, as a
dropped request is not recorded, which is the model's reading of R245 (log entry 5). A disabled STEP and every other
command request none. -/
def Obligations.VBlankRequestOnlyOnEntry : Prop :=
  ∀ s : State,
    (∀ n, s.regs.lcdc.getLsbD 7 = true →
      let before := fun j => State.transitions j { s with clk := s.clk + n }
      ∃ k t, exec (.step n) s = .next t ∧ t = (before k).compared ∧
        (∀ j, j < k → ¬ (before j).clockOk) ∧
        (s.cfg.stepPolicy = .single → k = if s.threshold ≤ s.clk + n then 1 else 0) ∧
        (s.cfg.stepPolicy = .loop → s.cfg.ok → (before k).clockOk) ∧
        t.outputCount (.event (.irq .vblank)) = s.outputCount (.event (.irq .vblank)) +
          if s.cfg.cpuPresent then
            (List.range k).countP fun j => (before j).mode = .hblank ∧ (before j).regs.ly = 143
          else 0) ∧
    (∀ i t, exec i s = .next t → ((∃ n, i = .step n) → s.regs.lcdc.getLsbD 7 = false) →
      t.outputCount (.event (.irq .vblank)) = s.outputCount (.event (.irq .vblank)))

/-- One STEP under the single policy emits at most four events (R114). The order and number of events are the spec's
decision D24. -/
def Obligations.AtMostFourEventsPerSingleStep : Prop :=
  ∀ (s : State) (n : Nat), s.cfg.stepPolicy = .single → s.outputs = [] →
    ∃ t, exec (.step n) s = .next t ∧ t.events.length ≤ 4

/-- Without a CPU every command leaves the same state as with one, and its outputs are the same but for the interrupt
requests, which are dropped (R245). That a dropped request is not recorded is the model's reading (log entry 5). -/
def Obligations.AbsentCpuOnlyDropsRequests : Prop :=
  ∀ (i : Instr) (s t : State), s.cfg.cpuPresent = true → s.outputs = [] → exec i s = .next t →
    exec i { s with cfg := { s.cfg with cpuPresent := false } } =
      .next { t with
        cfg := { t.cfg with cpuPresent := false }, outputs := t.outputs.filter fun o => !o.isIrq }

/-! ### Who writes what -/

/-- Mode, mode clock and coincidence flag change only in STEP and at creation (R22 to R25, R35). -/
def Obligations.OnlyStepMovesTheSequencer : Prop :=
  ∀ (i : Instr) (s t : State), exec i s = .next t → (∀ n, i ≠ .step n) → i ≠ .powerOn →
    t.mode = s.mode ∧ t.clk = s.clk ∧ t.coinc = s.coinc

/-- Apart from creation, the framebuffer changes only in STEP, VRAM only in WRITE_VRAM, OAM only in WRITE_OAM and DMA,
and the observer only in REGISTER_OBSERVER (R26, R36 to R38, R235). What a creation drew for the memories stays drawn;
the fields that hold it are the model's (log entries 9 and 10). -/
def Obligations.EachStorageHasItsWriters : Prop :=
  ∀ (i : Instr) (s t : State), exec i s = .next t → i ≠ .powerOn →
    ((∀ n, i ≠ .step n) → t.fb = s.fb) ∧
    ((∀ o v, i ≠ .writeVram o v) → t.vram = s.vram) ∧
    ((∀ o v, i ≠ .writeOamLo o v) → (∀ o v, i ≠ .writeOamHi o v) → (∀ v, i ≠ .writeDma v) → t.oam = s.oam) ∧
    ((∀ o, i ≠ .registerObserver o) → t.observer = s.observer) ∧
    t.memFill = s.memFill ∧ t.memDraws = s.memDraws ∧ t.creation = s.creation

/-- STEP writes no register but LY, neither memory, not the observer, and returns nothing (R31, R32, R36, R37, R60). -/
def Obligations.StepWritesNoRegisterButLy : Prop :=
  ∀ (s t : State) (n : Nat), exec (.step n) s = .next t →
    t.regs = { s.regs with ly := t.regs.ly } ∧ t.vram = s.vram ∧ t.oam = s.oam ∧ t.observer = s.observer ∧
    t.result = s.result ∧ t.calls = s.calls ∧
    t.memFill = s.memFill ∧ t.memDraws = s.memDraws ∧ t.creation = s.creation

/-- No step changes the configuration or the external memory (log entries 6 and 11). -/
def Obligations.ConfigurationIsConstant : Prop :=
  ∀ s t : State, step s = .next t → t.cfg = s.cfg ∧ t.extMem = s.extMem

/-! ### Invariant -/

/-- Every step keeps the invariant: configuration as R5 and R110 ask, memories canonical, LY in 0..153 and on a visible
line in every visible mode (R110). The canonical form of memory is the model's (log entry 9); the spec derives the
rest. -/
def Obligations.InvariantKeptByEveryStep : Prop :=
  ∀ s t : State, s.Inv → step s = .next t → t.Inv

/-- The invariant holds at reset. -/
def Obligations.InvariantHoldsAtReset : Prop := State.reset.Inv

/-! ### Rendering -/

/-- Under the single policy a STEP changes no framebuffer row but the current line, and none unless it ends
VRAMTransfer with the display enabled (R235, R209). -/
def Obligations.OneRowPerSingleStep : Prop :=
  ∀ (s t : State) (n : Nat), exec (.step n) s = .next t → s.cfg.stepPolicy = .single →
    (∀ y x, y ≠ s.regs.ly.toNat → t.viewPixel y x = s.viewPixel y x) ∧
    (¬ (s.regs.lcdc.getLsbD 7 = true ∧ s.mode = .vramTransfer ∧ s.cfg.tVram ≤ s.clk + n) → t.fb = s.fb)

/-- The background pixel, from LY, SCY, SCX, LCDC bits 4 and 3, BGP and raw VRAM, in plain arithmetic: the background
renderer, which runs in HBlank, writes it in every column of row LY, whatever the policy and the sprites; and with the
sprites gated off the STEP that renders line LY under the single policy leaves it there (R180 to R185, R165). Bases,
polarities and palette slots are the spec's decisions D5 and D26. -/
def Obligations.BackgroundPixelFormula : Prop :=
  ∀ (s : State) (x : Nat), s.regs.lcdc.getLsbD 0 = true → s.regs.ly.toNat < 144 → x < 160 →
    let tr := (s.regs.ly.toNat + s.regs.scy.toNat) / 8 % 32
    let pr := (s.regs.ly.toNat + s.regs.scy.toNat) % 8
    let tc := (s.regs.scx.toNat + x) / 8 % 32
    let idx := (s.vramByte ((if s.regs.lcdc.getLsbD 3 then 0x1C00 else 0x1800) + 32 * tr + tc)).toNat
    let tile := if s.regs.lcdc.getLsbD 4 then 16 * idx else if idx < 128 then 0x1000 + 16 * idx else 16 * idx
    let lo := (s.vramByte (tile + 2 * pr)).toNat
    let hi := (s.vramByte (tile + 2 * pr + 1)).toNat
    let b := 7 - (s.regs.scx.toNat + x) % 8
    let c := hi / 2 ^ b % 2 * 2 + lo / 2 ^ b % 2
    let shade := s.regs.bgp.toNat / 2 ^ (2 * c) % 4
    (s.mode = .hblank → (s.renderBgLine.viewPixel s.regs.ly.toNat x).toNat = shade) ∧
    (∀ n, s.regs.lcdc.getLsbD 7 = true → s.cfg.stepPolicy = .single → s.mode = .vramTransfer →
      s.cfg.tVram ≤ s.clk + n → s.cfg.spriteEnableGated = true → s.regs.lcdc.getLsbD 1 = false →
      ∃ t, exec (.step n) s = .next t ∧ (t.viewPixel s.regs.ly.toNat x).toNat = shade)

/-- With the background disabled the renderer fills all 160 columns of its row with shade 0, whatever BGP and VRAM
hold (R186). -/
def Obligations.DisabledBackgroundFillsShadeZero : Prop :=
  ∀ (s : State) (bgp : Byte) (vram : Memory) (x : Nat), s.regs.lcdc.getLsbD 0 = false →
    s.regs.ly.toNat < 144 → x < 160 →
    (State.renderBgLine { s with vram := vram, regs := { s.regs with bgp := bgp } }).viewPixel s.regs.ly.toNat x = 0

/-- Tile row, pixel row and tile column of line y and column x, on sums that are not truncated, and the same from the
sums wrapped at 8 bits (R181). -/
def Obligations.ScrollArithmeticWraps : Prop :=
  ∀ (scy scx : Byte) (y x : Nat),
    bgTileRow scy y = (y + scy.toNat) / 8 % 32 ∧ bgPixelRow scy y = (y + scy.toNat) % 8 ∧
    bgTileCol scx x = (scx.toNat + x) / 8 % 32 ∧
    bgTileRow scy y = (y + scy.toNat) % 256 / 8 ∧ bgPixelRow scy y = (y + scy.toNat) % 256 % 8 ∧
    bgTileCol scx x = (scx.toNat + x) % 256 / 8

/-- The window is not drawn: WY, WX and LCDC bits 6 and 5 change nothing that a STEP does but their own stored values,
under either policy and in either sprite order (R187, R28, R161, R163). -/
def Obligations.WindowStateAffectsNoPixel : Prop :=
  ∀ (s t : State) (n : Nat) (lcdc wy wx : Byte),
    (∀ b, b ≠ 5 → b ≠ 6 → lcdc.getLsbD b = s.regs.lcdc.getLsbD b) → exec (.step n) s = .next t →
    exec (.step n) { s with regs := { s.regs with lcdc := lcdc, wy := wy, wx := wx } } =
      .next { t with regs := { t.regs with lcdc := lcdc, wy := wy, wx := wx } }

/-- Bits 1..0 of OBP0 and OBP1 affect no pixel: colour index 0 is never drawn (R33, R206). The place of slot 0 is the
spec's decision D26. -/
def Obligations.ObjectPaletteSlotZeroIsUnused : Prop :=
  ∀ (s : State) (o0 o1 : Byte), o0.toNat / 4 = s.regs.obp0.toNat / 4 → o1.toNat / 4 = s.regs.obp1.toNat / 4 →
    (State.renderSpritesLine { s with regs := { s.regs with obp0 := o0, obp1 := o1 } }).fb = s.renderSpritesLine.fb

/-- The low bit of a stored tile index does not matter for 8×16 sprites (R201). The polarity of LCDC bit 2 is the
spec's decision D5. -/
def Obligations.TallSpritesIgnoreTheTileLowBit : Prop :=
  ∀ (s : State) (n : Nat), s.regs.lcdc.getLsbD 2 = true → n < 40 →
    (State.renderSpritesLine
      { s with oam := Memory.write s.oam (4 * n + 2) (s.oamByte (4 * n + 2) ^^^ 1) }).fb =
    s.renderSpritesLine.fb

/-- Entry n is the OAM bytes 4n, 4n+1, 4n+2 and 4n+3 as Y, X, TILE and ATTR (R76); and the pixel of an entry on line y,
in plain arithmetic over raw VRAM: which lines and columns the entry covers, that it has no pixel outside its columns,
and, where it covers both, its colour index from the row and the bit R204 to R206 select, a transparent pixel being none
(R201 to R206, R165). Attribute bits, tile base and unwrapped positions are the spec's decisions D6, D7 and D27. -/
def Obligations.SpritePixelFormula : Prop :=
  (∀ (s : State) (n : Nat),
    (s.sprite n).y = s.oamByte (4 * n) ∧ (s.sprite n).x = s.oamByte (4 * n + 1) ∧
    (s.sprite n).tile = s.oamByte (4 * n + 2) ∧ (s.sprite n).attr = s.oamByte (4 * n + 3)) ∧
  ∀ (s : State) (sp : Sprite) (y x : Nat), s.mode = .hblank →
    let h := if s.regs.lcdc.getLsbD 2 then 16 else 8
    let off := y + 16 - sp.y.toNat
    let row := if sp.attr.getLsbD 6 then h - 1 - off else off
    let tile := if h = 16 then sp.tile.toNat / 2 * 2 else sp.tile.toNat
    let px := x + 8 - sp.x.toNat
    let b := if sp.attr.getLsbD 5 then px else 7 - px
    let lo := (s.vramByte (16 * tile + 2 * row)).toNat
    let hi := (s.vramByte (16 * tile + 2 * row + 1)).toNat
    let c := hi / 2 ^ b % 2 * 2 + lo / 2 ^ b % 2
    (s.onLine sp y = true ↔ sp.y.toNat ≤ y + 16 ∧ y + 16 < sp.y.toNat + h) ∧
    (¬ (sp.x.toNat ≤ x + 8 ∧ x < sp.x.toNat) → s.opaqueAt sp y x = none) ∧
    (sp.y.toNat ≤ y + 16 → y + 16 < sp.y.toNat + h → sp.x.toNat ≤ x + 8 → x < sp.x.toNat →
      (s.opaqueAt sp y x).map BitVec.toNat = if c = 0 then none else some c)

/-- Under oam_overwrite the row the sprite renderer leaves is, column by column, what the 40 entries leave when each in
ascending order composes its opaque pixel over the shade already there: no limit per line, no write off the screen
(R200, R208 to R210, R212). The order is the spec's default D11; the attribute bits are its decision D6. -/
def Obligations.OverwriteRowByColumns : Prop :=
  ∀ (s : State) (y : Nat) (row : Row) (x : Fin 160), s.cfg.spriteOrder = .oamOverwrite →
    (s.spritesOver y row)[x] = (List.range 40).foldl
      (fun old n => if s.onLine (s.sprite n) y then
          match s.opaqueAt (s.sprite n) y x.val with
          | some c =>
            if (s.sprite n).attr.getLsbD 7 = true ∧ old ≠ 0 then old
            else palette (if (s.sprite n).attr.getLsbD 4 then s.regs.obp1 else s.regs.obp0) c
          | none => old
        else old) row[x]

/-- Under hw_priority only one sprite may write a column: among the entries that cover the line and have a nonzero
colour index there, the one with the smallest SX, the lowest index on a tie; its shade is written under R208 (R211).
The form of the rule is the spec's decision D11, from general knowledge (its item G15). -/
def Obligations.PriorityWinnerIsLeftmostThenEarliest : Prop :=
  ∀ (s : State) (y : Nat) (row : Row) (x : Fin 160), s.cfg.spriteOrder = .hwPriority →
    ((∀ n, n < 40 → s.candidate y x.val n = false) → (s.spritesOver y row)[x] = row[x]) ∧
    (∀ n c, n < 40 → s.onLine (s.sprite n) y = true → s.opaqueAt (s.sprite n) y x.val = some c →
      (∀ m, m < 40 → s.candidate y x.val m = true →
        (s.sprite n).x.toNat < (s.sprite m).x.toNat ∨ ((s.sprite n).x = (s.sprite m).x ∧ n ≤ m)) →
      (s.spritesOver y row)[x] =
        if (s.sprite n).attr.getLsbD 7 = true ∧ row[x] ≠ 0 then row[x]
        else palette (if (s.sprite n).attr.getLsbD 4 then s.regs.obp1 else s.regs.obp0) c)

/-- A background pixel of nonzero shade stays where every opaque sprite pixel over it asks to be behind (R208), in
either order between sprites. The attribute bit is the spec's decision D6. -/
def Obligations.BehindSpritesKeepANonzeroPixel : Prop :=
  ∀ (s : State) (y : Nat) (row : Row) (x : Fin 160), row[x] ≠ 0 →
    (∀ n, n < 40 → s.candidate y x.val n = true → (s.sprite n).attr.getLsbD 7 = true) →
    (s.spritesOver y row)[x] = row[x]

/-- The gate: with SPRITE_ENABLE_GATED and LCDC bit 1 clear the sprite renderer draws nothing; otherwise it draws its
sprites over row LY as the framebuffer holds it, in the configured order, and touches no other row (R200, D12). The gate
is the spec's decision D12. -/
def Obligations.SpriteEnableGatesTheRenderer : Prop :=
  ∀ s : State, s.regs.ly.toNat < 144 →
    (s.cfg.spriteEnableGated = true → s.regs.lcdc.getLsbD 1 = false → s.renderSpritesLine = s) ∧
    (s.cfg.spriteEnableGated = false ∨ s.regs.lcdc.getLsbD 1 = true →
      (∀ row : Row, (∀ x : Fin 160, row[x] = s.viewPixel s.regs.ly.toNat x.val) →
        ∀ x : Fin 160, s.renderSpritesLine.viewPixel s.regs.ly.toNat x.val =
          (s.spritesOver s.regs.ly.toNat row)[x]) ∧
      ∀ y x, y ≠ s.regs.ly.toNat → s.renderSpritesLine.viewPixel y x = s.viewPixel y x)
end

