-- ==== Sys2Proof/Laws/Decoding.lean ====
section
/-! SUPPORT. The fields of a command word, and what the two address decoders select. -/

namespace Sys2Proof

theorem commandWord_toNat {cls a : Nat} (hc : cls < 16) (ha : a < 0x10000) :
    (commandWord cls a).toNat = cls * 0x10000 + a := by
  simp only [commandWord, BitVec.toNat_ofNat]
  omega

theorem HostCall.cls_eq (c : HostCall) : c.cls = c.word.toNat / 0x10000 := by
  have := c.word.isLt
  simp only [HostCall.cls, BitVec.extractLsb'_toNat, Nat.shiftRight_eq_div_pow]
  omega

theorem HostCall.addr_toNat (c : HostCall) : c.addr.toNat = c.word.toNat % 0x10000 := by
  simp [HostCall.addr]

/-- A call's word is its class and its address field (R70). -/
theorem HostCall.word_eq (c : HostCall) : c.word = commandWord c.cls c.addr.toNat := by
  have h := c.word.isLt
  apply BitVec.eq_of_toNat_eq
  rw [commandWord_toNat (by rw [c.cls_eq]; omega) c.addr.isLt, c.cls_eq, c.addr_toNat]
  omega

theorem cls_commandWord {cls a : Nat} (hc : cls < 16) (ha : a < 0x10000) (o : Operand) :
    HostCall.cls ⟨commandWord cls a, o⟩ = cls := by
  rw [HostCall.cls_eq, commandWord_toNat hc ha]
  omega

theorem addr_commandWord {cls a : Nat} (hc : cls < 16) (ha : a < 0x10000) (o : Operand) :
    HostCall.addr ⟨commandWord cls a, o⟩ = BitVec.ofNat 16 a := by
  apply BitVec.eq_of_toNat_eq
  rw [HostCall.addr_toNat, commandWord_toNat hc ha, BitVec.toNat_ofNat]
  omega

/-- A READ call decodes by its address. -/
theorem decode_read {a : Nat} (ha : a < 0x10000) :
    decode (.read a) = .ok (decodeRead (BitVec.ofNat 16 a)) := by
  simp [decode, decodeReadCall, HostCall.read, cls_commandWord, addr_commandWord, ha]

/-- A WRITE call of a byte decodes by its address. -/
theorem decode_write {a : Nat} (ha : a < 0x10000) (v : Byte) :
    decode (.write a v) = .ok (decodeWrite (BitVec.ofNat 16 a) v) := by
  have := v.isLt
  simp [decode, decodeWriteCall, HostCall.write, cls_commandWord, addr_commandWord, ha, this]

/-- An address outside the map selects the catch-all rows (R72). -/
theorem decode_unmapped {a : Address} (h : mapped a = false) (v : Byte) :
    decodeRead a = .readOther a ∧ decodeWrite a v = .writeOther a v := by
  have h' : ¬ (0x8000 ≤ a.toNat ∧ a.toNat < 0xA000) ∧ ¬ (0xFE00 ≤ a.toNat ∧ a.toNat < 0xFEA0) ∧
      ¬ (0xFF40 ≤ a.toNat ∧ a.toNat ≤ 0xFF4B) := by
    simpa [mapped, inVram, inOam, inRegs, Config.vramBase, Config.vramSize, Config.oamBase, Config.oamSize,
      and_assoc] using h
  constructor <;> (first | unfold decodeRead | unfold decodeWrite) <;> repeat rw [if_neg (by omega)]

/-- What a READ address selects encodes to that READ, and is well formed. -/
theorem encode_decodeRead (a : Address) :
    encode (decodeRead a) = .read a.toNat ∧ (decodeRead a).wellFormed = true := by
  have := a.isLt
  unfold decodeRead
  iterate 12
    refine iteInduction (motive := fun i => encode i = .read a.toNat ∧ i.wellFormed = true)
      (fun h => ⟨by rw [h]; rfl, rfl⟩) fun _ => ?_
  iterate 3
    refine iteInduction (motive := fun i => encode i = .read a.toNat ∧ i.wellFormed = true)
      (fun h => ⟨by rw [encode, BitVec.toNat_ofNat]; exact congrArg HostCall.read (by omega), rfl⟩) fun _ => ?_
  refine ⟨rfl, ?_⟩
  simp [Instr.wellFormed, mapped, inVram, inOam, inRegs, Config.vramBase, Config.vramSize, Config.oamBase,
    Config.oamSize]
  omega

/-- What a WRITE address selects encodes to that WRITE, and is well formed. -/
theorem encode_decodeWrite (a : Address) (v : Byte) :
    encode (decodeWrite a v) = .write a.toNat v ∧ (decodeWrite a v).wellFormed = true := by
  have := a.isLt
  unfold decodeWrite
  iterate 12
    refine iteInduction (motive := fun i => encode i = .write a.toNat v ∧ i.wellFormed = true)
      (fun h => ⟨by rw [h]; rfl, rfl⟩) fun _ => ?_
  iterate 3
    refine iteInduction (motive := fun i => encode i = .write a.toNat v ∧ i.wellFormed = true)
      (fun h => ⟨by rw [encode, BitVec.toNat_ofNat]; exact congrArg (HostCall.write · v) (by omega), rfl⟩) fun _ => ?_
  refine ⟨rfl, ?_⟩
  simp [Instr.wellFormed, mapped, inVram, inOam, inRegs, Config.vramBase, Config.vramSize, Config.oamBase,
    Config.oamSize]
  omega

/-- An address of the VRAM window selects READ_VRAM and WRITE_VRAM with its offset (R72, R73). -/
theorem decode_vram (o : BitVec 13) (v : Byte) :
    decodeRead (BitVec.ofNat 16 (0x8000 + o.toNat)) = .readVram o ∧
    decodeWrite (BitVec.ofNat 16 (0x8000 + o.toNat)) v = .writeVram o v := by
  have := o.isLt
  have e : BitVec.ofNat 13 (0x8000 + o.toNat - 0x8000) = o := by simp
  have ha : (BitVec.ofNat 16 (0x8000 + o.toNat)).toNat = 0x8000 + o.toNat := by
    simp only [BitVec.toNat_ofNat]
    omega
  constructor <;> (first | unfold decodeRead | unfold decodeWrite) <;> rw [ha] <;>
    (iterate 12 rw [if_neg (by omega)]) <;> rw [if_pos (by omega), e]

/-- An address of the low OAM row selects READ_OAM_LO and WRITE_OAM_LO with its offset (R72, R73). -/
theorem decode_oamLo (o : BitVec 7) (v : Byte) :
    decodeRead (BitVec.ofNat 16 (0xFE00 + o.toNat)) = .readOamLo o ∧
    decodeWrite (BitVec.ofNat 16 (0xFE00 + o.toNat)) v = .writeOamLo o v := by
  have := o.isLt
  have e : BitVec.ofNat 7 (0xFE00 + o.toNat - 0xFE00) = o := by simp
  have ha : (BitVec.ofNat 16 (0xFE00 + o.toNat)).toNat = 0xFE00 + o.toNat := by
    simp only [BitVec.toNat_ofNat]
    omega
  constructor <;> (first | unfold decodeRead | unfold decodeWrite) <;> rw [ha] <;>
    (iterate 13 rw [if_neg (by omega)]) <;> rw [if_pos (by omega), e]

/-- An address of the high OAM row selects READ_OAM_HI and WRITE_OAM_HI with its offset (R72, R73). -/
theorem decode_oamHi (o : BitVec 5) (v : Byte) :
    decodeRead (BitVec.ofNat 16 (0xFE80 + o.toNat)) = .readOamHi o ∧
    decodeWrite (BitVec.ofNat 16 (0xFE80 + o.toNat)) v = .writeOamHi o v := by
  have := o.isLt
  have e : BitVec.ofNat 5 (0xFE80 + o.toNat - 0xFE80) = o := by simp
  have ha : (BitVec.ofNat 16 (0xFE80 + o.toNat)).toNat = 0xFE80 + o.toNat := by
    simp only [BitVec.toNat_ofNat]
    omega
  constructor <;> (first | unfold decodeRead | unfold decodeWrite) <;> rw [ha] <;>
    (iterate 14 rw [if_neg (by omega)]) <;> rw [if_pos (by omega), e]

/-- Masking off the low `k` bits of a word leaves its upper part in place (R72). -/
theorem and_highMask (w : CommandWord) {k p : Nat} (hk : k ≤ 20) (hp : w.toNat / 2 ^ k = p) :
    w &&& BitVec.ofNat 20 (2 ^ 20 - 2 ^ k) = BitVec.ofNat 20 (p * 2 ^ k) := by
  subst hp
  have e : 2 ^ 20 - 2 ^ k = (2 ^ (20 - k) - 1) * 2 ^ k := by
    rw [Nat.sub_mul, ← pow_add]
    simp [hk]
  apply BitVec.eq_of_getLsbD_eq
  intro i hi
  simp only [BitVec.getLsbD_and, BitVec.getLsbD_ofNat, e, Nat.testBit_mul_two_pow, hi, decide_true, Bool.true_and]
  by_cases hki : k ≤ i
  · simp [hki, Nat.testBit_two_pow_sub_one, Nat.testBit_div_two_pow, show i - k < 20 - k by omega, BitVec.getLsbD]
  · simp [hki]

/-- A word whose class and address lie in a row of the table matches it when the row leaves the low `k` bits open (R72). -/
theorem commandWord_highMask {cls a k p : Nat} (hc : cls < 16) (ha : a < 0x10000) (hk : k ≤ 20)
    (hp : (cls * 0x10000 + a) / 2 ^ k = p) :
    commandWord cls a &&& BitVec.ofNat 20 (2 ^ 20 - 2 ^ k) = BitVec.ofNat 20 (p * 2 ^ k) :=
  and_highMask _ hk (by rw [commandWord_toNat hc ha, hp])

end Sys2Proof
end

