-- ==== Sys2Proof/Laws/Memory.lean ====
section
/-! SUPPORT. The laws of a memory: lookup after write, the canonical form kept, equal lookups mean equal memories. -/

namespace Sys2Proof.Machine.Memory

/-- Every listed offset is above `a`. -/
abbrev above (a : Nat) (m : Memory) : Prop := ∀ c ∈ m, a < c.1

@[simp] theorem lookup_nil (a : Nat) : Memory.lookup [] a = none := rfl

@[simp] theorem lookup_cons (k : Nat) (b : Byte) (m : Memory) (a : Nat) :
    Memory.lookup ((k, b) :: m) a = if k = a then some b else Memory.lookup m a := rfl

@[simp] theorem wf_nil : Memory.wf [] := List.Pairwise.nil

theorem wf_cons {k : Nat} {b : Byte} {m : Memory} : Memory.wf ((k, b) :: m) ↔ above k m ∧ Memory.wf m :=
  List.pairwise_cons

/-- Below its least offset a memory lists nothing. -/
theorem lookup_of_above {a : Nat} {m : Memory} (h : above a m) : Memory.lookup m a = none := by
  induction m with
  | nil => rfl
  | cons c m ih =>
    obtain ⟨k, b⟩ := c
    have hk : a < k := h (k, b) (by simp)
    rw [lookup_cons, if_neg (by omega)]
    exact ih fun c hc => h c (by simp [hc])

/-- A write lists no offset but those listed before and its own. -/
theorem mem_write {m : Memory} {a : Nat} {v : Byte} {c : Host.Cell} (h : c ∈ Memory.write m a v) :
    c ∈ m ∨ c = (a, v) := by
  induction m with
  | nil => exact .inr (by simpa [Memory.write] using h)
  | cons d m ih =>
    obtain ⟨k, b⟩ := d
    unfold Memory.write at h
    split at h
    · rcases List.mem_cons.mp h with h | h
      · exact .inl (by simp [h])
      · exact (ih h).imp (by simp +contextual) id
    · split at h <;> rcases List.mem_cons.mp h with h | h
      · exact .inr h
      · exact .inl (by simp [h])
      · exact .inr h
      · exact .inl h

/-- Every write keeps the canonical form. -/
theorem write_wf {m : Memory} (h : Memory.wf m) (a : Nat) (v : Byte) : Memory.wf (Memory.write m a v) := by
  induction m with
  | nil => exact wf_cons.mpr ⟨by simp, wf_nil⟩
  | cons d m ih =>
    obtain ⟨k, b⟩ := d
    obtain ⟨ha, hm⟩ := wf_cons.mp h
    unfold Memory.write
    split
    · rename_i hk
      refine wf_cons.mpr ⟨fun c hc => ?_, ih hm⟩
      rcases mem_write hc with hc | rfl
      · exact ha c hc
      · exact hk
    · split
      · rename_i hk
        exact wf_cons.mpr ⟨hk ▸ ha, hm⟩
      · refine wf_cons.mpr ⟨fun c hc => ?_, h⟩
        rcases List.mem_cons.mp hc with rfl | hc
        · show a < k
          omega
        · have := ha c hc
          show a < c.1
          omega

/-- A write inside the array lists nothing outside it. -/
theorem write_within {m : Memory} {n a : Nat} (h : Memory.within n m) (ha : a < n) (v : Byte) :
    Memory.within n (Memory.write m a v) := by
  intro c hc
  rcases mem_write hc with hc | rfl
  · exact h c hc
  · exact ha

/-- Lookup after write: the offset written lists the value, every other offset what it listed before. A write goes past
no entry of a greater offset, so this needs no canonical form. -/
theorem lookup_write (m : Memory) (a : Nat) (v : Byte) (o : Nat) :
    Memory.lookup (Memory.write m a v) o = if o = a then some v else Memory.lookup m o := by
  induction m with
  | nil => simp [Memory.write, eq_comm]
  | cons d m ih =>
    obtain ⟨k, b⟩ := d
    unfold Memory.write
    split
    · rw [lookup_cons, lookup_cons, ih]
      split <;> split <;> first | rfl | omega
    · split
      · rename_i hk
        subst hk
        rw [lookup_cons, lookup_cons]
        split <;> split <;> first | rfl | omega
      · rw [lookup_cons]
        split <;> split <;> first | rfl | omega

/-- Two memories in canonical form that list the same everywhere are the same list. -/
theorem ext_lookup {m n : Memory} (hm : Memory.wf m) (hn : Memory.wf n)
    (h : ∀ a, Memory.lookup m a = Memory.lookup n a) : m = n := by
  induction m generalizing n with
  | nil =>
    cases n with
    | nil => rfl
    | cons d n =>
      obtain ⟨k, b⟩ := d
      simpa using h k
  | cons c m ih =>
    obtain ⟨k, b⟩ := c
    obtain ⟨ha, hm'⟩ := wf_cons.mp hm
    cases n with
    | nil => simpa using h k
    | cons d n =>
      obtain ⟨l, e⟩ := d
      obtain ⟨la, hn'⟩ := wf_cons.mp hn
      have hkl : k = l := by
        by_contra hne
        have hk := h k
        have hl := h l
        simp only [lookup_cons, if_true, if_neg hne, if_neg (Ne.symm hne)] at hk hl
        rcases Nat.lt_or_gt_of_ne hne with hlt | hlt
        · rw [lookup_of_above fun c hc => lt_trans hlt (la c hc)] at hk
          cases hk
        · rw [lookup_of_above fun c hc => lt_trans hlt (ha c hc)] at hl
          cases hl
      subst hkl
      have hbe : b = e := by simpa using h k
      subst hbe
      refine congrArg _ (ih hm' hn' fun a => ?_)
      by_cases hka : k = a
      · subst hka
        rw [lookup_of_above ha, lookup_of_above la]
      · simpa [hka] using h a

end Sys2Proof.Machine.Memory
end

