-- ==== Sys2Proof/Laws/State.lean ====
section
/-! SUPPORT. One lemma per field per update of the state, so that no later proof unfolds a record update. -/

namespace Sys2Proof.Machine.State

variable (s : State)

@[simp] theorem setRegs_cfg (r : RegBank) : (s.setRegs r).cfg = s.cfg := rfl
@[simp] theorem setRegs_mode (r : RegBank) : (s.setRegs r).mode = s.mode := rfl
@[simp] theorem setRegs_clk (r : RegBank) : (s.setRegs r).clk = s.clk := rfl
@[simp] theorem setRegs_coinc (r : RegBank) : (s.setRegs r).coinc = s.coinc := rfl
@[simp] theorem setRegs_regs (r : RegBank) : (s.setRegs r).regs = r := rfl
@[simp] theorem setRegs_vram (r : RegBank) : (s.setRegs r).vram = s.vram := rfl
@[simp] theorem setRegs_oam (r : RegBank) : (s.setRegs r).oam = s.oam := rfl
@[simp] theorem setRegs_fb (r : RegBank) : (s.setRegs r).fb = s.fb := rfl
@[simp] theorem setRegs_observer (r : RegBank) : (s.setRegs r).observer = s.observer := rfl
@[simp] theorem setRegs_calls (r : RegBank) : (s.setRegs r).calls = s.calls := rfl
@[simp] theorem setRegs_outputs (r : RegBank) : (s.setRegs r).outputs = s.outputs := rfl
@[simp] theorem setRegs_result (r : RegBank) : (s.setRegs r).result = s.result := rfl
@[simp] theorem setRegs_extMem (r : RegBank) : (s.setRegs r).extMem = s.extMem := rfl
@[simp] theorem setRegs_extDraws (r : RegBank) : (s.setRegs r).extDraws = s.extDraws := rfl
@[simp] theorem setRegs_memFill (r : RegBank) : (s.setRegs r).memFill = s.memFill := rfl
@[simp] theorem setRegs_memDraws (r : RegBank) : (s.setRegs r).memDraws = s.memDraws := rfl
@[simp] theorem setRegs_creation (r : RegBank) : (s.setRegs r).creation = s.creation := rfl

@[simp] theorem setMode_cfg (m : Mode) : (s.setMode m).cfg = s.cfg := rfl
@[simp] theorem setMode_mode (m : Mode) : (s.setMode m).mode = m := rfl
@[simp] theorem setMode_clk (m : Mode) : (s.setMode m).clk = s.clk := rfl
@[simp] theorem setMode_coinc (m : Mode) : (s.setMode m).coinc = s.coinc := rfl
@[simp] theorem setMode_regs (m : Mode) : (s.setMode m).regs = s.regs := rfl
@[simp] theorem setMode_vram (m : Mode) : (s.setMode m).vram = s.vram := rfl
@[simp] theorem setMode_oam (m : Mode) : (s.setMode m).oam = s.oam := rfl
@[simp] theorem setMode_fb (m : Mode) : (s.setMode m).fb = s.fb := rfl
@[simp] theorem setMode_observer (m : Mode) : (s.setMode m).observer = s.observer := rfl
@[simp] theorem setMode_calls (m : Mode) : (s.setMode m).calls = s.calls := rfl
@[simp] theorem setMode_outputs (m : Mode) : (s.setMode m).outputs = s.outputs := rfl
@[simp] theorem setMode_result (m : Mode) : (s.setMode m).result = s.result := rfl
@[simp] theorem setMode_extMem (m : Mode) : (s.setMode m).extMem = s.extMem := rfl
@[simp] theorem setMode_extDraws (m : Mode) : (s.setMode m).extDraws = s.extDraws := rfl
@[simp] theorem setMode_memFill (m : Mode) : (s.setMode m).memFill = s.memFill := rfl
@[simp] theorem setMode_memDraws (m : Mode) : (s.setMode m).memDraws = s.memDraws := rfl
@[simp] theorem setMode_creation (m : Mode) : (s.setMode m).creation = s.creation := rfl

@[simp] theorem setClk_cfg (n : Nat) : (s.setClk n).cfg = s.cfg := rfl
@[simp] theorem setClk_mode (n : Nat) : (s.setClk n).mode = s.mode := rfl
@[simp] theorem setClk_clk (n : Nat) : (s.setClk n).clk = n := rfl
@[simp] theorem setClk_coinc (n : Nat) : (s.setClk n).coinc = s.coinc := rfl
@[simp] theorem setClk_regs (n : Nat) : (s.setClk n).regs = s.regs := rfl
@[simp] theorem setClk_vram (n : Nat) : (s.setClk n).vram = s.vram := rfl
@[simp] theorem setClk_oam (n : Nat) : (s.setClk n).oam = s.oam := rfl
@[simp] theorem setClk_fb (n : Nat) : (s.setClk n).fb = s.fb := rfl
@[simp] theorem setClk_observer (n : Nat) : (s.setClk n).observer = s.observer := rfl
@[simp] theorem setClk_calls (n : Nat) : (s.setClk n).calls = s.calls := rfl
@[simp] theorem setClk_outputs (n : Nat) : (s.setClk n).outputs = s.outputs := rfl
@[simp] theorem setClk_result (n : Nat) : (s.setClk n).result = s.result := rfl
@[simp] theorem setClk_extMem (n : Nat) : (s.setClk n).extMem = s.extMem := rfl
@[simp] theorem setClk_extDraws (n : Nat) : (s.setClk n).extDraws = s.extDraws := rfl
@[simp] theorem setClk_memFill (n : Nat) : (s.setClk n).memFill = s.memFill := rfl
@[simp] theorem setClk_memDraws (n : Nat) : (s.setClk n).memDraws = s.memDraws := rfl
@[simp] theorem setClk_creation (n : Nat) : (s.setClk n).creation = s.creation := rfl

@[simp] theorem setCoinc_cfg (b : Bool) : (s.setCoinc b).cfg = s.cfg := rfl
@[simp] theorem setCoinc_mode (b : Bool) : (s.setCoinc b).mode = s.mode := rfl
@[simp] theorem setCoinc_clk (b : Bool) : (s.setCoinc b).clk = s.clk := rfl
@[simp] theorem setCoinc_coinc (b : Bool) : (s.setCoinc b).coinc = b := rfl
@[simp] theorem setCoinc_regs (b : Bool) : (s.setCoinc b).regs = s.regs := rfl
@[simp] theorem setCoinc_vram (b : Bool) : (s.setCoinc b).vram = s.vram := rfl
@[simp] theorem setCoinc_oam (b : Bool) : (s.setCoinc b).oam = s.oam := rfl
@[simp] theorem setCoinc_fb (b : Bool) : (s.setCoinc b).fb = s.fb := rfl
@[simp] theorem setCoinc_observer (b : Bool) : (s.setCoinc b).observer = s.observer := rfl
@[simp] theorem setCoinc_calls (b : Bool) : (s.setCoinc b).calls = s.calls := rfl
@[simp] theorem setCoinc_outputs (b : Bool) : (s.setCoinc b).outputs = s.outputs := rfl
@[simp] theorem setCoinc_result (b : Bool) : (s.setCoinc b).result = s.result := rfl
@[simp] theorem setCoinc_extMem (b : Bool) : (s.setCoinc b).extMem = s.extMem := rfl
@[simp] theorem setCoinc_extDraws (b : Bool) : (s.setCoinc b).extDraws = s.extDraws := rfl
@[simp] theorem setCoinc_memFill (b : Bool) : (s.setCoinc b).memFill = s.memFill := rfl
@[simp] theorem setCoinc_memDraws (b : Bool) : (s.setCoinc b).memDraws = s.memDraws := rfl
@[simp] theorem setCoinc_creation (b : Bool) : (s.setCoinc b).creation = s.creation := rfl

@[simp] theorem setVram_cfg (m : Memory) : (s.setVram m).cfg = s.cfg := rfl
@[simp] theorem setVram_mode (m : Memory) : (s.setVram m).mode = s.mode := rfl
@[simp] theorem setVram_clk (m : Memory) : (s.setVram m).clk = s.clk := rfl
@[simp] theorem setVram_coinc (m : Memory) : (s.setVram m).coinc = s.coinc := rfl
@[simp] theorem setVram_regs (m : Memory) : (s.setVram m).regs = s.regs := rfl
@[simp] theorem setVram_vram (m : Memory) : (s.setVram m).vram = m := rfl
@[simp] theorem setVram_oam (m : Memory) : (s.setVram m).oam = s.oam := rfl
@[simp] theorem setVram_fb (m : Memory) : (s.setVram m).fb = s.fb := rfl
@[simp] theorem setVram_observer (m : Memory) : (s.setVram m).observer = s.observer := rfl
@[simp] theorem setVram_calls (m : Memory) : (s.setVram m).calls = s.calls := rfl
@[simp] theorem setVram_outputs (m : Memory) : (s.setVram m).outputs = s.outputs := rfl
@[simp] theorem setVram_result (m : Memory) : (s.setVram m).result = s.result := rfl
@[simp] theorem setVram_extMem (m : Memory) : (s.setVram m).extMem = s.extMem := rfl
@[simp] theorem setVram_extDraws (m : Memory) : (s.setVram m).extDraws = s.extDraws := rfl
@[simp] theorem setVram_memFill (m : Memory) : (s.setVram m).memFill = s.memFill := rfl
@[simp] theorem setVram_memDraws (m : Memory) : (s.setVram m).memDraws = s.memDraws := rfl
@[simp] theorem setVram_creation (m : Memory) : (s.setVram m).creation = s.creation := rfl

@[simp] theorem setOam_cfg (m : Memory) : (s.setOam m).cfg = s.cfg := rfl
@[simp] theorem setOam_mode (m : Memory) : (s.setOam m).mode = s.mode := rfl
@[simp] theorem setOam_clk (m : Memory) : (s.setOam m).clk = s.clk := rfl
@[simp] theorem setOam_coinc (m : Memory) : (s.setOam m).coinc = s.coinc := rfl
@[simp] theorem setOam_regs (m : Memory) : (s.setOam m).regs = s.regs := rfl
@[simp] theorem setOam_vram (m : Memory) : (s.setOam m).vram = s.vram := rfl
@[simp] theorem setOam_oam (m : Memory) : (s.setOam m).oam = m := rfl
@[simp] theorem setOam_fb (m : Memory) : (s.setOam m).fb = s.fb := rfl
@[simp] theorem setOam_observer (m : Memory) : (s.setOam m).observer = s.observer := rfl
@[simp] theorem setOam_calls (m : Memory) : (s.setOam m).calls = s.calls := rfl
@[simp] theorem setOam_outputs (m : Memory) : (s.setOam m).outputs = s.outputs := rfl
@[simp] theorem setOam_result (m : Memory) : (s.setOam m).result = s.result := rfl
@[simp] theorem setOam_extMem (m : Memory) : (s.setOam m).extMem = s.extMem := rfl
@[simp] theorem setOam_extDraws (m : Memory) : (s.setOam m).extDraws = s.extDraws := rfl
@[simp] theorem setOam_memFill (m : Memory) : (s.setOam m).memFill = s.memFill := rfl
@[simp] theorem setOam_memDraws (m : Memory) : (s.setOam m).memDraws = s.memDraws := rfl
@[simp] theorem setOam_creation (m : Memory) : (s.setOam m).creation = s.creation := rfl

@[simp] theorem setFb_cfg (f : Frame) : (s.setFb f).cfg = s.cfg := rfl
@[simp] theorem setFb_mode (f : Frame) : (s.setFb f).mode = s.mode := rfl
@[simp] theorem setFb_clk (f : Frame) : (s.setFb f).clk = s.clk := rfl
@[simp] theorem setFb_coinc (f : Frame) : (s.setFb f).coinc = s.coinc := rfl
@[simp] theorem setFb_regs (f : Frame) : (s.setFb f).regs = s.regs := rfl
@[simp] theorem setFb_vram (f : Frame) : (s.setFb f).vram = s.vram := rfl
@[simp] theorem setFb_oam (f : Frame) : (s.setFb f).oam = s.oam := rfl
@[simp] theorem setFb_fb (f : Frame) : (s.setFb f).fb = f := rfl
@[simp] theorem setFb_observer (f : Frame) : (s.setFb f).observer = s.observer := rfl
@[simp] theorem setFb_calls (f : Frame) : (s.setFb f).calls = s.calls := rfl
@[simp] theorem setFb_outputs (f : Frame) : (s.setFb f).outputs = s.outputs := rfl
@[simp] theorem setFb_result (f : Frame) : (s.setFb f).result = s.result := rfl
@[simp] theorem setFb_extMem (f : Frame) : (s.setFb f).extMem = s.extMem := rfl
@[simp] theorem setFb_extDraws (f : Frame) : (s.setFb f).extDraws = s.extDraws := rfl
@[simp] theorem setFb_memFill (f : Frame) : (s.setFb f).memFill = s.memFill := rfl
@[simp] theorem setFb_memDraws (f : Frame) : (s.setFb f).memDraws = s.memDraws := rfl
@[simp] theorem setFb_creation (f : Frame) : (s.setFb f).creation = s.creation := rfl

@[simp] theorem setObserver_cfg (o : Option ObserverRef) : (s.setObserver o).cfg = s.cfg := rfl
@[simp] theorem setObserver_mode (o : Option ObserverRef) : (s.setObserver o).mode = s.mode := rfl
@[simp] theorem setObserver_clk (o : Option ObserverRef) : (s.setObserver o).clk = s.clk := rfl
@[simp] theorem setObserver_coinc (o : Option ObserverRef) : (s.setObserver o).coinc = s.coinc := rfl
@[simp] theorem setObserver_regs (o : Option ObserverRef) : (s.setObserver o).regs = s.regs := rfl
@[simp] theorem setObserver_vram (o : Option ObserverRef) : (s.setObserver o).vram = s.vram := rfl
@[simp] theorem setObserver_oam (o : Option ObserverRef) : (s.setObserver o).oam = s.oam := rfl
@[simp] theorem setObserver_fb (o : Option ObserverRef) : (s.setObserver o).fb = s.fb := rfl
@[simp] theorem setObserver_observer (o : Option ObserverRef) : (s.setObserver o).observer = o := rfl
@[simp] theorem setObserver_calls (o : Option ObserverRef) : (s.setObserver o).calls = s.calls := rfl
@[simp] theorem setObserver_outputs (o : Option ObserverRef) : (s.setObserver o).outputs = s.outputs := rfl
@[simp] theorem setObserver_result (o : Option ObserverRef) : (s.setObserver o).result = s.result := rfl
@[simp] theorem setObserver_extMem (o : Option ObserverRef) : (s.setObserver o).extMem = s.extMem := rfl
@[simp] theorem setObserver_extDraws (o : Option ObserverRef) : (s.setObserver o).extDraws = s.extDraws := rfl
@[simp] theorem setObserver_memFill (o : Option ObserverRef) : (s.setObserver o).memFill = s.memFill := rfl
@[simp] theorem setObserver_memDraws (o : Option ObserverRef) : (s.setObserver o).memDraws = s.memDraws := rfl
@[simp] theorem setObserver_creation (o : Option ObserverRef) : (s.setObserver o).creation = s.creation := rfl

@[simp] theorem ret_cfg (r : Result) : (s.ret r).cfg = s.cfg := rfl
@[simp] theorem ret_mode (r : Result) : (s.ret r).mode = s.mode := rfl
@[simp] theorem ret_clk (r : Result) : (s.ret r).clk = s.clk := rfl
@[simp] theorem ret_coinc (r : Result) : (s.ret r).coinc = s.coinc := rfl
@[simp] theorem ret_regs (r : Result) : (s.ret r).regs = s.regs := rfl
@[simp] theorem ret_vram (r : Result) : (s.ret r).vram = s.vram := rfl
@[simp] theorem ret_oam (r : Result) : (s.ret r).oam = s.oam := rfl
@[simp] theorem ret_fb (r : Result) : (s.ret r).fb = s.fb := rfl
@[simp] theorem ret_observer (r : Result) : (s.ret r).observer = s.observer := rfl
@[simp] theorem ret_calls (r : Result) : (s.ret r).calls = s.calls := rfl
@[simp] theorem ret_outputs (r : Result) : (s.ret r).outputs = s.outputs := rfl
@[simp] theorem ret_result (r : Result) : (s.ret r).result = r := rfl
@[simp] theorem ret_extMem (r : Result) : (s.ret r).extMem = s.extMem := rfl
@[simp] theorem ret_extDraws (r : Result) : (s.ret r).extDraws = s.extDraws := rfl
@[simp] theorem ret_memFill (r : Result) : (s.ret r).memFill = s.memFill := rfl
@[simp] theorem ret_memDraws (r : Result) : (s.ret r).memDraws = s.memDraws := rfl
@[simp] theorem ret_creation (r : Result) : (s.ret r).creation = s.creation := rfl

@[simp] theorem put_cfg (o : Output) : (s.put o).cfg = s.cfg := rfl
@[simp] theorem put_mode (o : Output) : (s.put o).mode = s.mode := rfl
@[simp] theorem put_clk (o : Output) : (s.put o).clk = s.clk := rfl
@[simp] theorem put_coinc (o : Output) : (s.put o).coinc = s.coinc := rfl
@[simp] theorem put_regs (o : Output) : (s.put o).regs = s.regs := rfl
@[simp] theorem put_vram (o : Output) : (s.put o).vram = s.vram := rfl
@[simp] theorem put_oam (o : Output) : (s.put o).oam = s.oam := rfl
@[simp] theorem put_fb (o : Output) : (s.put o).fb = s.fb := rfl
@[simp] theorem put_observer (o : Output) : (s.put o).observer = s.observer := rfl
@[simp] theorem put_calls (o : Output) : (s.put o).calls = s.calls := rfl
@[simp] theorem put_outputs (o : Output) : (s.put o).outputs = s.outputs ++ [o] := rfl
@[simp] theorem put_result (o : Output) : (s.put o).result = s.result := rfl
@[simp] theorem put_extMem (o : Output) : (s.put o).extMem = s.extMem := rfl
@[simp] theorem put_extDraws (o : Output) : (s.put o).extDraws = s.extDraws := rfl
@[simp] theorem put_memFill (o : Output) : (s.put o).memFill = s.memFill := rfl
@[simp] theorem put_memDraws (o : Output) : (s.put o).memDraws = s.memDraws := rfl
@[simp] theorem put_creation (o : Output) : (s.put o).creation = s.creation := rfl

@[simp] theorem emit_cfg (e : Event) : (s.emit e).cfg = s.cfg := rfl
@[simp] theorem emit_mode (e : Event) : (s.emit e).mode = s.mode := rfl
@[simp] theorem emit_clk (e : Event) : (s.emit e).clk = s.clk := rfl
@[simp] theorem emit_coinc (e : Event) : (s.emit e).coinc = s.coinc := rfl
@[simp] theorem emit_regs (e : Event) : (s.emit e).regs = s.regs := rfl
@[simp] theorem emit_vram (e : Event) : (s.emit e).vram = s.vram := rfl
@[simp] theorem emit_oam (e : Event) : (s.emit e).oam = s.oam := rfl
@[simp] theorem emit_fb (e : Event) : (s.emit e).fb = s.fb := rfl
@[simp] theorem emit_observer (e : Event) : (s.emit e).observer = s.observer := rfl
@[simp] theorem emit_calls (e : Event) : (s.emit e).calls = s.calls := rfl
@[simp] theorem emit_outputs (e : Event) : (s.emit e).outputs = s.outputs ++ [.event e] := rfl
@[simp] theorem emit_result (e : Event) : (s.emit e).result = s.result := rfl
@[simp] theorem emit_extMem (e : Event) : (s.emit e).extMem = s.extMem := rfl
@[simp] theorem emit_extDraws (e : Event) : (s.emit e).extDraws = s.extDraws := rfl
@[simp] theorem emit_memFill (e : Event) : (s.emit e).memFill = s.memFill := rfl
@[simp] theorem emit_memDraws (e : Event) : (s.emit e).memDraws = s.memDraws := rfl
@[simp] theorem emit_creation (e : Event) : (s.emit e).creation = s.creation := rfl

@[simp] theorem beginCall_cfg (rest : List HostCall) : (s.beginCall rest).cfg = s.cfg := rfl
@[simp] theorem beginCall_mode (rest : List HostCall) : (s.beginCall rest).mode = s.mode := rfl
@[simp] theorem beginCall_clk (rest : List HostCall) : (s.beginCall rest).clk = s.clk := rfl
@[simp] theorem beginCall_coinc (rest : List HostCall) : (s.beginCall rest).coinc = s.coinc := rfl
@[simp] theorem beginCall_regs (rest : List HostCall) : (s.beginCall rest).regs = s.regs := rfl
@[simp] theorem beginCall_vram (rest : List HostCall) : (s.beginCall rest).vram = s.vram := rfl
@[simp] theorem beginCall_oam (rest : List HostCall) : (s.beginCall rest).oam = s.oam := rfl
@[simp] theorem beginCall_fb (rest : List HostCall) : (s.beginCall rest).fb = s.fb := rfl
@[simp] theorem beginCall_observer (rest : List HostCall) : (s.beginCall rest).observer = s.observer := rfl
@[simp] theorem beginCall_calls (rest : List HostCall) : (s.beginCall rest).calls = rest := rfl
@[simp] theorem beginCall_outputs (rest : List HostCall) : (s.beginCall rest).outputs = [] := rfl
@[simp] theorem beginCall_result (rest : List HostCall) : (s.beginCall rest).result = .nothing := rfl
@[simp] theorem beginCall_extMem (rest : List HostCall) : (s.beginCall rest).extMem = s.extMem := rfl
@[simp] theorem beginCall_extDraws (rest : List HostCall) : (s.beginCall rest).extDraws = s.extDraws := rfl
@[simp] theorem beginCall_memFill (rest : List HostCall) : (s.beginCall rest).memFill = s.memFill := rfl
@[simp] theorem beginCall_memDraws (rest : List HostCall) : (s.beginCall rest).memDraws = s.memDraws := rfl
@[simp] theorem beginCall_creation (rest : List HostCall) : (s.beginCall rest).creation = s.creation := rfl

@[simp] theorem countExtRead_cfg (a : Nat) : (s.countExtRead a).cfg = s.cfg := rfl
@[simp] theorem countExtRead_mode (a : Nat) : (s.countExtRead a).mode = s.mode := rfl
@[simp] theorem countExtRead_clk (a : Nat) : (s.countExtRead a).clk = s.clk := rfl
@[simp] theorem countExtRead_coinc (a : Nat) : (s.countExtRead a).coinc = s.coinc := rfl
@[simp] theorem countExtRead_regs (a : Nat) : (s.countExtRead a).regs = s.regs := rfl
@[simp] theorem countExtRead_vram (a : Nat) : (s.countExtRead a).vram = s.vram := rfl
@[simp] theorem countExtRead_oam (a : Nat) : (s.countExtRead a).oam = s.oam := rfl
@[simp] theorem countExtRead_fb (a : Nat) : (s.countExtRead a).fb = s.fb := rfl
@[simp] theorem countExtRead_observer (a : Nat) : (s.countExtRead a).observer = s.observer := rfl
@[simp] theorem countExtRead_calls (a : Nat) : (s.countExtRead a).calls = s.calls := rfl
@[simp] theorem countExtRead_outputs (a : Nat) : (s.countExtRead a).outputs = s.outputs ++ [.extRead a] := rfl
@[simp] theorem countExtRead_result (a : Nat) : (s.countExtRead a).result = s.result := rfl
@[simp] theorem countExtRead_extMem (a : Nat) : (s.countExtRead a).extMem = s.extMem := rfl
@[simp] theorem countExtRead_extDraws (a : Nat) : (s.countExtRead a).extDraws = s.extDraws + 1 := rfl
@[simp] theorem countExtRead_memFill (a : Nat) : (s.countExtRead a).memFill = s.memFill := rfl
@[simp] theorem countExtRead_memDraws (a : Nat) : (s.countExtRead a).memDraws = s.memDraws := rfl
@[simp] theorem countExtRead_creation (a : Nat) : (s.countExtRead a).creation = s.creation := rfl

@[simp] theorem setReg_cfg (n : Reg) (v : Byte) : (s.setReg n v).cfg = s.cfg := rfl
@[simp] theorem setReg_mode (n : Reg) (v : Byte) : (s.setReg n v).mode = s.mode := rfl
@[simp] theorem setReg_clk (n : Reg) (v : Byte) : (s.setReg n v).clk = s.clk := rfl
@[simp] theorem setReg_coinc (n : Reg) (v : Byte) : (s.setReg n v).coinc = s.coinc := rfl
@[simp] theorem setReg_regs (n : Reg) (v : Byte) : (s.setReg n v).regs = s.regs.set n v := rfl
@[simp] theorem setReg_vram (n : Reg) (v : Byte) : (s.setReg n v).vram = s.vram := rfl
@[simp] theorem setReg_oam (n : Reg) (v : Byte) : (s.setReg n v).oam = s.oam := rfl
@[simp] theorem setReg_fb (n : Reg) (v : Byte) : (s.setReg n v).fb = s.fb := rfl
@[simp] theorem setReg_observer (n : Reg) (v : Byte) : (s.setReg n v).observer = s.observer := rfl
@[simp] theorem setReg_calls (n : Reg) (v : Byte) : (s.setReg n v).calls = s.calls := rfl
@[simp] theorem setReg_outputs (n : Reg) (v : Byte) : (s.setReg n v).outputs = s.outputs := rfl
@[simp] theorem setReg_result (n : Reg) (v : Byte) : (s.setReg n v).result = s.result := rfl
@[simp] theorem setReg_extMem (n : Reg) (v : Byte) : (s.setReg n v).extMem = s.extMem := rfl
@[simp] theorem setReg_extDraws (n : Reg) (v : Byte) : (s.setReg n v).extDraws = s.extDraws := rfl
@[simp] theorem setReg_memFill (n : Reg) (v : Byte) : (s.setReg n v).memFill = s.memFill := rfl
@[simp] theorem setReg_memDraws (n : Reg) (v : Byte) : (s.setReg n v).memDraws = s.memDraws := rfl
@[simp] theorem setReg_creation (n : Reg) (v : Byte) : (s.setReg n v).creation = s.creation := rfl

@[simp] theorem setStatHi_cfg (v : Byte) : (s.setStatHi v).cfg = s.cfg := rfl
@[simp] theorem setStatHi_mode (v : Byte) : (s.setStatHi v).mode = s.mode := rfl
@[simp] theorem setStatHi_clk (v : Byte) : (s.setStatHi v).clk = s.clk := rfl
@[simp] theorem setStatHi_coinc (v : Byte) : (s.setStatHi v).coinc = s.coinc := rfl
@[simp] theorem setStatHi_regs (v : Byte) : (s.setStatHi v).regs = { s.regs with statHi := v.extractLsb' 3 5 } := rfl
@[simp] theorem setStatHi_vram (v : Byte) : (s.setStatHi v).vram = s.vram := rfl
@[simp] theorem setStatHi_oam (v : Byte) : (s.setStatHi v).oam = s.oam := rfl
@[simp] theorem setStatHi_fb (v : Byte) : (s.setStatHi v).fb = s.fb := rfl
@[simp] theorem setStatHi_observer (v : Byte) : (s.setStatHi v).observer = s.observer := rfl
@[simp] theorem setStatHi_calls (v : Byte) : (s.setStatHi v).calls = s.calls := rfl
@[simp] theorem setStatHi_outputs (v : Byte) : (s.setStatHi v).outputs = s.outputs := rfl
@[simp] theorem setStatHi_result (v : Byte) : (s.setStatHi v).result = s.result := rfl
@[simp] theorem setStatHi_extMem (v : Byte) : (s.setStatHi v).extMem = s.extMem := rfl
@[simp] theorem setStatHi_extDraws (v : Byte) : (s.setStatHi v).extDraws = s.extDraws := rfl
@[simp] theorem setStatHi_memFill (v : Byte) : (s.setStatHi v).memFill = s.memFill := rfl
@[simp] theorem setStatHi_memDraws (v : Byte) : (s.setStatHi v).memDraws = s.memDraws := rfl
@[simp] theorem setStatHi_creation (v : Byte) : (s.setStatHi v).creation = s.creation := rfl

@[simp] theorem requestIrq_cfg (k : IrqKind) : (s.requestIrq k).cfg = s.cfg := by unfold requestIrq; split <;> rfl
@[simp] theorem requestIrq_mode (k : IrqKind) : (s.requestIrq k).mode = s.mode := by unfold requestIrq; split <;> rfl
@[simp] theorem requestIrq_clk (k : IrqKind) : (s.requestIrq k).clk = s.clk := by unfold requestIrq; split <;> rfl
@[simp] theorem requestIrq_coinc (k : IrqKind) : (s.requestIrq k).coinc = s.coinc := by unfold requestIrq; split <;> rfl
@[simp] theorem requestIrq_regs (k : IrqKind) : (s.requestIrq k).regs = s.regs := by unfold requestIrq; split <;> rfl
@[simp] theorem requestIrq_vram (k : IrqKind) : (s.requestIrq k).vram = s.vram := by unfold requestIrq; split <;> rfl
@[simp] theorem requestIrq_oam (k : IrqKind) : (s.requestIrq k).oam = s.oam := by unfold requestIrq; split <;> rfl
@[simp] theorem requestIrq_fb (k : IrqKind) : (s.requestIrq k).fb = s.fb := by unfold requestIrq; split <;> rfl
@[simp] theorem requestIrq_observer (k : IrqKind) : (s.requestIrq k).observer = s.observer := by unfold requestIrq; split <;> rfl
@[simp] theorem requestIrq_calls (k : IrqKind) : (s.requestIrq k).calls = s.calls := by unfold requestIrq; split <;> rfl
@[simp] theorem requestIrq_result (k : IrqKind) : (s.requestIrq k).result = s.result := by unfold requestIrq; split <;> rfl
@[simp] theorem requestIrq_extMem (k : IrqKind) : (s.requestIrq k).extMem = s.extMem := by unfold requestIrq; split <;> rfl
@[simp] theorem requestIrq_extDraws (k : IrqKind) : (s.requestIrq k).extDraws = s.extDraws := by unfold requestIrq; split <;> rfl
@[simp] theorem requestIrq_memFill (k : IrqKind) : (s.requestIrq k).memFill = s.memFill := by unfold requestIrq; split <;> rfl
@[simp] theorem requestIrq_memDraws (k : IrqKind) : (s.requestIrq k).memDraws = s.memDraws := by unfold requestIrq; split <;> rfl
@[simp] theorem requestIrq_creation (k : IrqKind) : (s.requestIrq k).creation = s.creation := by unfold requestIrq; split <;> rfl

@[simp] theorem requestIrqIf_cfg (b : Bool) (k : IrqKind) : (s.requestIrqIf b k).cfg = s.cfg := by cases b <;> simp [requestIrqIf]
@[simp] theorem requestIrqIf_mode (b : Bool) (k : IrqKind) : (s.requestIrqIf b k).mode = s.mode := by cases b <;> simp [requestIrqIf]
@[simp] theorem requestIrqIf_clk (b : Bool) (k : IrqKind) : (s.requestIrqIf b k).clk = s.clk := by cases b <;> simp [requestIrqIf]
@[simp] theorem requestIrqIf_coinc (b : Bool) (k : IrqKind) : (s.requestIrqIf b k).coinc = s.coinc := by cases b <;> simp [requestIrqIf]
@[simp] theorem requestIrqIf_regs (b : Bool) (k : IrqKind) : (s.requestIrqIf b k).regs = s.regs := by cases b <;> simp [requestIrqIf]
@[simp] theorem requestIrqIf_vram (b : Bool) (k : IrqKind) : (s.requestIrqIf b k).vram = s.vram := by cases b <;> simp [requestIrqIf]
@[simp] theorem requestIrqIf_oam (b : Bool) (k : IrqKind) : (s.requestIrqIf b k).oam = s.oam := by cases b <;> simp [requestIrqIf]
@[simp] theorem requestIrqIf_fb (b : Bool) (k : IrqKind) : (s.requestIrqIf b k).fb = s.fb := by cases b <;> simp [requestIrqIf]
@[simp] theorem requestIrqIf_observer (b : Bool) (k : IrqKind) : (s.requestIrqIf b k).observer = s.observer := by cases b <;> simp [requestIrqIf]
@[simp] theorem requestIrqIf_calls (b : Bool) (k : IrqKind) : (s.requestIrqIf b k).calls = s.calls := by cases b <;> simp [requestIrqIf]
@[simp] theorem requestIrqIf_result (b : Bool) (k : IrqKind) : (s.requestIrqIf b k).result = s.result := by cases b <;> simp [requestIrqIf]
@[simp] theorem requestIrqIf_extMem (b : Bool) (k : IrqKind) : (s.requestIrqIf b k).extMem = s.extMem := by cases b <;> simp [requestIrqIf]
@[simp] theorem requestIrqIf_extDraws (b : Bool) (k : IrqKind) : (s.requestIrqIf b k).extDraws = s.extDraws := by cases b <;> simp [requestIrqIf]
@[simp] theorem requestIrqIf_memFill (b : Bool) (k : IrqKind) : (s.requestIrqIf b k).memFill = s.memFill := by cases b <;> simp [requestIrqIf]
@[simp] theorem requestIrqIf_memDraws (b : Bool) (k : IrqKind) : (s.requestIrqIf b k).memDraws = s.memDraws := by cases b <;> simp [requestIrqIf]
@[simp] theorem requestIrqIf_creation (b : Bool) (k : IrqKind) : (s.requestIrqIf b k).creation = s.creation := by cases b <;> simp [requestIrqIf]

@[simp] theorem frameSink_cfg : s.frameSink.cfg = s.cfg := by unfold frameSink; split <;> rfl
@[simp] theorem frameSink_mode : s.frameSink.mode = s.mode := by unfold frameSink; split <;> rfl
@[simp] theorem frameSink_clk : s.frameSink.clk = s.clk := by unfold frameSink; split <;> rfl
@[simp] theorem frameSink_coinc : s.frameSink.coinc = s.coinc := by unfold frameSink; split <;> rfl
@[simp] theorem frameSink_regs : s.frameSink.regs = s.regs := by unfold frameSink; split <;> rfl
@[simp] theorem frameSink_vram : s.frameSink.vram = s.vram := by unfold frameSink; split <;> rfl
@[simp] theorem frameSink_oam : s.frameSink.oam = s.oam := by unfold frameSink; split <;> rfl
@[simp] theorem frameSink_fb : s.frameSink.fb = s.fb := by unfold frameSink; split <;> rfl
@[simp] theorem frameSink_observer : s.frameSink.observer = s.observer := by unfold frameSink; split <;> rfl
@[simp] theorem frameSink_calls : s.frameSink.calls = s.calls := by unfold frameSink; split <;> rfl
@[simp] theorem frameSink_result : s.frameSink.result = s.result := by unfold frameSink; split <;> rfl
@[simp] theorem frameSink_extMem : s.frameSink.extMem = s.extMem := by unfold frameSink; split <;> rfl
@[simp] theorem frameSink_extDraws : s.frameSink.extDraws = s.extDraws := by unfold frameSink; split <;> rfl
@[simp] theorem frameSink_memFill : s.frameSink.memFill = s.memFill := by unfold frameSink; split <;> rfl
@[simp] theorem frameSink_memDraws : s.frameSink.memDraws = s.memDraws := by unfold frameSink; split <;> rfl
@[simp] theorem frameSink_creation : s.frameSink.creation = s.creation := by unfold frameSink; split <;> rfl

@[simp] theorem setFbRow_cfg (y : Nat) (r : Row) : (s.setFbRow y r).cfg = s.cfg := by unfold setFbRow; split <;> rfl
@[simp] theorem setFbRow_mode (y : Nat) (r : Row) : (s.setFbRow y r).mode = s.mode := by unfold setFbRow; split <;> rfl
@[simp] theorem setFbRow_clk (y : Nat) (r : Row) : (s.setFbRow y r).clk = s.clk := by unfold setFbRow; split <;> rfl
@[simp] theorem setFbRow_coinc (y : Nat) (r : Row) : (s.setFbRow y r).coinc = s.coinc := by unfold setFbRow; split <;> rfl
@[simp] theorem setFbRow_regs (y : Nat) (r : Row) : (s.setFbRow y r).regs = s.regs := by unfold setFbRow; split <;> rfl
@[simp] theorem setFbRow_vram (y : Nat) (r : Row) : (s.setFbRow y r).vram = s.vram := by unfold setFbRow; split <;> rfl
@[simp] theorem setFbRow_oam (y : Nat) (r : Row) : (s.setFbRow y r).oam = s.oam := by unfold setFbRow; split <;> rfl
@[simp] theorem setFbRow_observer (y : Nat) (r : Row) : (s.setFbRow y r).observer = s.observer := by unfold setFbRow; split <;> rfl
@[simp] theorem setFbRow_calls (y : Nat) (r : Row) : (s.setFbRow y r).calls = s.calls := by unfold setFbRow; split <;> rfl
@[simp] theorem setFbRow_outputs (y : Nat) (r : Row) : (s.setFbRow y r).outputs = s.outputs := by unfold setFbRow; split <;> rfl
@[simp] theorem setFbRow_result (y : Nat) (r : Row) : (s.setFbRow y r).result = s.result := by unfold setFbRow; split <;> rfl
@[simp] theorem setFbRow_extMem (y : Nat) (r : Row) : (s.setFbRow y r).extMem = s.extMem := by unfold setFbRow; split <;> rfl
@[simp] theorem setFbRow_extDraws (y : Nat) (r : Row) : (s.setFbRow y r).extDraws = s.extDraws := by unfold setFbRow; split <;> rfl
@[simp] theorem setFbRow_memFill (y : Nat) (r : Row) : (s.setFbRow y r).memFill = s.memFill := by unfold setFbRow; split <;> rfl
@[simp] theorem setFbRow_memDraws (y : Nat) (r : Row) : (s.setFbRow y r).memDraws = s.memDraws := by unfold setFbRow; split <;> rfl
@[simp] theorem setFbRow_creation (y : Nat) (r : Row) : (s.setFbRow y r).creation = s.creation := by unfold setFbRow; split <;> rfl

@[simp] theorem writeVram_cfg (o : Nat) (v : Byte) : (s.writeVram o v).cfg = s.cfg := by unfold writeVram; split <;> rfl
@[simp] theorem writeVram_mode (o : Nat) (v : Byte) : (s.writeVram o v).mode = s.mode := by unfold writeVram; split <;> rfl
@[simp] theorem writeVram_clk (o : Nat) (v : Byte) : (s.writeVram o v).clk = s.clk := by unfold writeVram; split <;> rfl
@[simp] theorem writeVram_coinc (o : Nat) (v : Byte) : (s.writeVram o v).coinc = s.coinc := by unfold writeVram; split <;> rfl
@[simp] theorem writeVram_regs (o : Nat) (v : Byte) : (s.writeVram o v).regs = s.regs := by unfold writeVram; split <;> rfl
@[simp] theorem writeVram_oam (o : Nat) (v : Byte) : (s.writeVram o v).oam = s.oam := by unfold writeVram; split <;> rfl
@[simp] theorem writeVram_fb (o : Nat) (v : Byte) : (s.writeVram o v).fb = s.fb := by unfold writeVram; split <;> rfl
@[simp] theorem writeVram_observer (o : Nat) (v : Byte) : (s.writeVram o v).observer = s.observer := by unfold writeVram; split <;> rfl
@[simp] theorem writeVram_calls (o : Nat) (v : Byte) : (s.writeVram o v).calls = s.calls := by unfold writeVram; split <;> rfl
@[simp] theorem writeVram_outputs (o : Nat) (v : Byte) : (s.writeVram o v).outputs = s.outputs := by unfold writeVram; split <;> rfl
@[simp] theorem writeVram_result (o : Nat) (v : Byte) : (s.writeVram o v).result = s.result := by unfold writeVram; split <;> rfl
@[simp] theorem writeVram_extMem (o : Nat) (v : Byte) : (s.writeVram o v).extMem = s.extMem := by unfold writeVram; split <;> rfl
@[simp] theorem writeVram_extDraws (o : Nat) (v : Byte) : (s.writeVram o v).extDraws = s.extDraws := by unfold writeVram; split <;> rfl
@[simp] theorem writeVram_memFill (o : Nat) (v : Byte) : (s.writeVram o v).memFill = s.memFill := by unfold writeVram; split <;> rfl
@[simp] theorem writeVram_memDraws (o : Nat) (v : Byte) : (s.writeVram o v).memDraws = s.memDraws := by unfold writeVram; split <;> rfl
@[simp] theorem writeVram_creation (o : Nat) (v : Byte) : (s.writeVram o v).creation = s.creation := by unfold writeVram; split <;> rfl

@[simp] theorem writeOam_cfg (o : Nat) (v : Byte) : (s.writeOam o v).cfg = s.cfg := by unfold writeOam; split <;> rfl
@[simp] theorem writeOam_mode (o : Nat) (v : Byte) : (s.writeOam o v).mode = s.mode := by unfold writeOam; split <;> rfl
@[simp] theorem writeOam_clk (o : Nat) (v : Byte) : (s.writeOam o v).clk = s.clk := by unfold writeOam; split <;> rfl
@[simp] theorem writeOam_coinc (o : Nat) (v : Byte) : (s.writeOam o v).coinc = s.coinc := by unfold writeOam; split <;> rfl
@[simp] theorem writeOam_regs (o : Nat) (v : Byte) : (s.writeOam o v).regs = s.regs := by unfold writeOam; split <;> rfl
@[simp] theorem writeOam_vram (o : Nat) (v : Byte) : (s.writeOam o v).vram = s.vram := by unfold writeOam; split <;> rfl
@[simp] theorem writeOam_fb (o : Nat) (v : Byte) : (s.writeOam o v).fb = s.fb := by unfold writeOam; split <;> rfl
@[simp] theorem writeOam_observer (o : Nat) (v : Byte) : (s.writeOam o v).observer = s.observer := by unfold writeOam; split <;> rfl
@[simp] theorem writeOam_calls (o : Nat) (v : Byte) : (s.writeOam o v).calls = s.calls := by unfold writeOam; split <;> rfl
@[simp] theorem writeOam_outputs (o : Nat) (v : Byte) : (s.writeOam o v).outputs = s.outputs := by unfold writeOam; split <;> rfl
@[simp] theorem writeOam_result (o : Nat) (v : Byte) : (s.writeOam o v).result = s.result := by unfold writeOam; split <;> rfl
@[simp] theorem writeOam_extMem (o : Nat) (v : Byte) : (s.writeOam o v).extMem = s.extMem := by unfold writeOam; split <;> rfl
@[simp] theorem writeOam_extDraws (o : Nat) (v : Byte) : (s.writeOam o v).extDraws = s.extDraws := by unfold writeOam; split <;> rfl
@[simp] theorem writeOam_memFill (o : Nat) (v : Byte) : (s.writeOam o v).memFill = s.memFill := by unfold writeOam; split <;> rfl
@[simp] theorem writeOam_memDraws (o : Nat) (v : Byte) : (s.writeOam o v).memDraws = s.memDraws := by unfold writeOam; split <;> rfl
@[simp] theorem writeOam_creation (o : Nat) (v : Byte) : (s.writeOam o v).creation = s.creation := by unfold writeOam; split <;> rfl

end Sys2Proof.Machine.State
end

