-- ==== Sys2Proof/Laws/Ops.lean ====
section
/-! SUPPORT. What each shared operation can do, said once: outputs of requests and of the frame sink, arbitrated accesses, registers, framebuffer rows, the DMA loop. -/

namespace Sys2Proof.Machine

/-! ### Outputs -/

theorem irqs_nil (c : Config) : irqs c [] = [] := by unfold irqs; split <;> rfl

@[simp] theorem State.requestIrq_outputs (s : State) (k : IrqKind) :
    (s.requestIrq k).outputs = s.outputs ++ irqs s.cfg [k] := by
  unfold State.requestIrq irqs
  split <;> simp

@[simp] theorem State.requestIrqIf_outputs (s : State) (b : Bool) (k : IrqKind) :
    (s.requestIrqIf b k).outputs = s.outputs ++ (if b then irqs s.cfg [k] else []) := by
  cases b <;> simp [State.requestIrqIf]

@[simp] theorem State.frameSink_outputs (s : State) :
    s.frameSink.outputs = s.outputs ++ [.event .frameComplete] ++ s.observer.toList.map Output.observerCall := by
  unfold State.frameSink
  split <;> rename_i h <;> simp [h]

/-- Every event an operation of the frame sink or a request adds is a request or FRAME_COMPLETE, never a LOG. -/
theorem log_not_mem_irqs (c : Config) (ks : List IrqKind) (k : LogKind) (a : Address) :
    Output.event (.log k a) ∉ irqs c ks := by
  unfold irqs
  split <;> simp

@[simp] theorem Output.toEvent_event (e : Event) : (Output.event e).toEvent = some e := rfl

@[simp] theorem Output.toEvent_observerCall (o : ObserverRef) : (Output.observerCall o).toEvent = none := rfl

@[simp] theorem Output.toEvent_extRead (a : Nat) : (Output.extRead a).toEvent = none := rfl

/-- No output of a request survives where the requests are left out (R245). -/
theorem filter_irqs (c : Config) (ks : List IrqKind) : (irqs c ks).filter (fun o => !o.isIrq) = [] := by
  unfold irqs
  split <;> simp [Output.isIrq]

/-! ### Registers -/

@[simp] theorem RegBank.set_statHi (r : RegBank) (n : Reg) (v : Byte) : (r.set n v).statHi = r.statHi := by
  cases n <;> rfl

/-- A stored register reads back, and every other register reads as before. -/
theorem State.reg_setReg (s : State) (n m : Reg) (v : Byte) :
    (s.setReg n v).reg m = if m = n then v else s.reg m := by
  cases n <;> cases m <;> rfl

@[simp] theorem State.setReg_ly (s : State) (v : Byte) : (s.setReg .ly v).regs = { s.regs with ly := v } := rfl

/-! ### The bytes of the two memories -/

/-- Storing a VRAM byte shows at its offset alone. -/
theorem State.vramByte_write (s : State) (a : Nat) (v : Byte) (o : Nat) :
    State.vramByte { s with vram := Memory.write s.vram a v } o = if o = a then v else s.vramByte o := by
  unfold State.vramByte
  rw [Memory.lookup_write]
  split <;> rfl

/-- Storing an OAM byte shows at its offset alone. -/
theorem State.oamByte_write (s : State) (a : Nat) (v : Byte) (o : Nat) :
    State.oamByte { s with oam := Memory.write s.oam a v } o = if o = a then v else s.oamByte o := by
  unfold State.oamByte
  rw [Memory.lookup_write]
  split <;> rfl

/-- A VRAM byte that nothing lists and no run fixes is the free value of its creation (R271). -/
theorem State.vramByte_of_none {s : State} {o : Nat} (h : Memory.lookup s.vram o = none) (hf : s.memFill = none) :
    s.vramByte o = Config.vramInit s.creation o := by simp [State.vramByte, h, hf]

/-- An OAM byte that nothing lists and no run fixes is the free value of its creation (R271). -/
theorem State.oamByte_of_none {s : State} {o : Nat} (h : Memory.lookup s.oam o = none) (hf : s.memFill = none) :
    s.oamByte o = Config.oamInit s.creation o := by simp [State.oamByte, h, hf]

/-! ### Arbitrated accesses -/

/-- HBlank blocks no access (R165). -/
theorem State.vramBlocked_hblank {s : State} (h : s.mode = .hblank) : s.vramBlocked = false := by
  simp [State.vramBlocked, h]

theorem State.readVram_of_not_blocked {s : State} (h : s.vramBlocked = false) (o : Nat) :
    s.readVram o = s.vramByte o := by simp [State.readVram, h]

/-- The renderers' reads are the raw bytes, because they run in HBlank (R165). -/
theorem State.memRead_hblank {s : State} (h : s.mode = .hblank) (a : Nat) :
    s.memRead a = s.vramByte (a - Config.vramBase) :=
  State.readVram_of_not_blocked (State.vramBlocked_hblank h) _

theorem State.vramBlocked_iff (s : State) :
    s.vramBlocked = true ↔ s.regs.lcdc.getLsbD 7 = true ∧ s.mode = .vramTransfer := by
  simp [State.vramBlocked, State.displayOn, State.lcdcBit]

theorem State.oamBlocked_iff (s : State) :
    s.oamBlocked = true ↔ s.regs.lcdc.getLsbD 7 = true ∧ (s.mode = .oamSearch ∨ s.mode = .vramTransfer) := by
  simp [State.oamBlocked, State.displayOn, State.lcdcBit]

theorem State.writeVram_vram (s : State) (o : Nat) (v : Byte) :
    (s.writeVram o v).vram = if s.vramBlocked then s.vram else Memory.write s.vram o v := by
  unfold State.writeVram
  split <;> rfl

theorem State.writeOam_oam (s : State) (o : Nat) (v : Byte) :
    (s.writeOam o v).oam = if s.oamBlocked then s.oam else Memory.write s.oam o v := by
  unfold State.writeOam
  split <;> rfl

/-! ### Framebuffer rows -/

theorem Frame.pixel_of_lt (f : Frame) {y x : Nat} (hy : y < 144) (hx : x < 160) : f.pixel y x = f[y][x] := by
  simp [Frame.pixel, hy, hx]

/-- Writing a row shows in that row alone, where the framebuffer has it. -/
theorem State.setFbRow_pixel (s : State) (y : Nat) (r : Row) (z x : Nat) :
    (s.setFbRow y r).viewPixel z x =
      if h : z = y ∧ y < 144 ∧ x < 160 then r[x]'h.2.2 else s.viewPixel z x := by
  unfold State.setFbRow
  split
  · rename_i hy
    by_cases hx : x < 160
    · by_cases hz : z < 144
      · have e : ∀ f : Frame, f.pixel z x = f[z][x] := fun f => Frame.pixel_of_lt f hz hx
        by_cases hzy : z = y
        · subst hzy
          simp [State.viewPixel, e, hx, hz]
        · simp [State.viewPixel, e, hzy, Vector.getElem_set_ne, Ne.symm hzy]
      · have hzy : z ≠ y := by
          rintro rfl
          exact hz hy
        simp [State.viewPixel, Frame.pixel, hz, hzy]
    · simp [State.viewPixel, Frame.pixel, hx]
  · rename_i hy
    have hy' : ¬ y < 144 := hy
    simp [hy']

theorem State.fbRow_getElem (s : State) (y : Nat) {x : Nat} (hx : x < 160) (hy : y < 144) :
    (s.fbRow y)[x] = s.viewPixel y x := by
  simp [State.fbRow, State.viewPixel, Frame.pixel, hx, hy]

/-- Writing back a row unchanged changes nothing. -/
theorem State.setFbRow_fbRow (s : State) (y : Nat) : s.setFbRow y (s.fbRow y) = s := by
  unfold State.setFbRow State.fbRow
  split
  · simp [State.setFb]
  · rfl

/-! ### Display values -/

@[simp] theorem shadeValue_zero (t : ShadeTable) : shadeValue t 0 = t.shade0 := rfl

@[simp] theorem shadeValue_one (t : ShadeTable) : shadeValue t 1 = t.shade1.getD Config.shade1 := rfl

@[simp] theorem shadeValue_two (t : ShadeTable) : shadeValue t 2 = t.shade2.getD Config.shade2 := rfl

@[simp] theorem shadeValue_three (t : ShadeTable) : shadeValue t 3 = t.shade3 := rfl

/-! ### The comparison -/

/-- The model's comparison is the one written out from R108, R109 and R245. -/
theorem State.compareLine_eq (s : State) : s.compareLine = s.compared := by
  apply State.ext <;> simp [State.compareLine, State.compared, State.lyEqLyc, State.lycIntEnable, irqs]
  · rfl
  · split_ifs <;> simp_all

/-! ### DMA -/

/-- What `n` turns of the copy loop do: the reads in ascending order, each counted, and the bytes stored. -/
theorem dma_loop (s : State) (base n : Nat) :
    ∃ m, (List.range n).foldl (State.dmaByte base) s =
        { s with
          oam := m
          outputs := s.outputs ++ (List.range n).map fun i => .extRead (base + i)
          extDraws := s.extDraws + n } ∧
      (Memory.wf s.oam → Memory.wf m) ∧
      (∀ i, i < n → State.oamByte { s with oam := m } i =
        (extAnswer s.extMem (base + i)).getD (Config.extByte (s.extDraws + i) (base + i))) ∧
      (∀ o, n ≤ o → State.oamByte { s with oam := m } o = s.oamByte o) ∧
      (∀ size, n ≤ size → Memory.within size s.oam → Memory.within size m) := by
  induction n with
  | zero => exact ⟨s.oam, by simp, id, by simp, by simp, fun _ _ hw => hw⟩
  | succ n ih =>
    obtain ⟨m, he, hm, hin, hout, hw⟩ := ih
    refine ⟨Memory.write m n ((extAnswer s.extMem (base + n)).getD (Config.extByte (s.extDraws + n) (base + n))),
      ?_, fun h => Memory.write_wf (hm h) _ _, fun i hi => ?_, fun o ho => ?_, fun size hs hsize => ?_⟩
    · rw [List.range_succ, List.foldl_append, he]
      simp [State.dmaByte, State.countExtRead, State.setOam, State.extByte, Nat.add_assoc]
    · rw [State.oamByte_write { s with oam := m }]
      split
      · rename_i hin'
        rw [hin']
      · exact hin i (by omega)
    · rw [State.oamByte_write { s with oam := m }, if_neg (by omega)]
      exact hout o (by omega)
    · exact Memory.write_within (hw size (by omega) hsize) (by omega) _

/-- A DMA copy changes OAM, the outputs and the draw counter, and nothing else (R170, R173). -/
theorem State.dmaCopy_frame (s : State) (v : Byte) :
    s.dmaCopy v = { s with
      oam := (s.dmaCopy v).oam, outputs := (s.dmaCopy v).outputs, extDraws := (s.dmaCopy v).extDraws } := by
  unfold State.dmaCopy
  split
  · generalize Config.oamSize = n
    induction n with
    | zero => rfl
    | succ n ih =>
      rw [List.range_succ, List.foldl_append]
      generalize (List.range n).foldl (State.dmaByte (v.toNat * 256)) s = u at ih
      rw [ih]
      rfl
  · rfl

/-! ### Creation -/

/-- What the run fixes of the next creation's memories is in canonical form, where every image to come is. -/
theorem State.nextImage_wf {s : State} (h : ∀ m ∈ s.memDraws, MemImage.wf m) : MemImage.wf s.nextImage := by
  unfold State.nextImage
  cases e : s.memDraws with
  | nil => exact ⟨Memory.wf_nil, by simp, Memory.wf_nil, by simp⟩
  | cons a l => exact h a (by simp [e])

end Sys2Proof.Machine
end

