-- ==== Sys2Proof/Laws/PerInstr.lean ====
section
/-! SUPPORT. For each instruction: the word that encodes it matches its row of the opcode table (R72). -/

namespace Sys2Proof.Laws.RowMatch

/-- The encoded word matches the instruction's row. -/
def Statement (i : Instr) : Prop := (encode i).word &&& i.row.mask = i.row.pattern

theorem readVram (off : BitVec 13) : Statement (.readVram off) := by
  have := off.isLt
  exact commandWord_highMask (k := 13) (p := 4) (by omega) (by omega) (by omega) (by omega)

theorem writeVram (off : BitVec 13) (v : Byte) : Statement (.writeVram off v) := by
  have := off.isLt
  exact commandWord_highMask (k := 13) (p := 12) (by omega) (by omega) (by omega) (by omega)

theorem readOamLo (off : BitVec 7) : Statement (.readOamLo off) := by
  have := off.isLt
  exact commandWord_highMask (k := 7) (p := 508) (by omega) (by omega) (by omega) (by omega)

theorem readOamHi (off : BitVec 5) : Statement (.readOamHi off) := by
  have := off.isLt
  exact commandWord_highMask (k := 5) (p := 2036) (by omega) (by omega) (by omega) (by omega)

theorem writeOamLo (off : BitVec 7) (v : Byte) : Statement (.writeOamLo off v) := by
  have := off.isLt
  exact commandWord_highMask (k := 7) (p := 1020) (by omega) (by omega) (by omega) (by omega)

theorem writeOamHi (off : BitVec 5) (v : Byte) : Statement (.writeOamHi off v) := by
  have := off.isLt
  exact commandWord_highMask (k := 5) (p := 4084) (by omega) (by omega) (by omega) (by omega)

theorem readLcdc : Statement .readLcdc := rfl

theorem writeLcdc (v : Byte) : Statement (.writeLcdc v) := by
  show commandWord 1 0xFF40 &&& 0xFFFFF = 0x1FF40
  decide

theorem readStat : Statement .readStat := rfl

theorem writeStat (v : Byte) : Statement (.writeStat v) := by
  show commandWord 1 0xFF41 &&& 0xFFFFF = 0x1FF41
  decide

theorem readScy : Statement .readScy := rfl

theorem writeScy (v : Byte) : Statement (.writeScy v) := by
  show commandWord 1 0xFF42 &&& 0xFFFFF = 0x1FF42
  decide

theorem readScx : Statement .readScx := rfl

theorem writeScx (v : Byte) : Statement (.writeScx v) := by
  show commandWord 1 0xFF43 &&& 0xFFFFF = 0x1FF43
  decide

theorem readLy : Statement .readLy := rfl

theorem writeLy (v : Byte) : Statement (.writeLy v) := by
  show commandWord 1 0xFF44 &&& 0xFFFFF = 0x1FF44
  decide

theorem readLyc : Statement .readLyc := rfl

theorem writeLyc (v : Byte) : Statement (.writeLyc v) := by
  show commandWord 1 0xFF45 &&& 0xFFFFF = 0x1FF45
  decide

theorem readDma : Statement .readDma := rfl

theorem writeDma (v : Byte) : Statement (.writeDma v) := by
  show commandWord 1 0xFF46 &&& 0xFFFFF = 0x1FF46
  decide

theorem readBgp : Statement .readBgp := rfl

theorem writeBgp (v : Byte) : Statement (.writeBgp v) := by
  show commandWord 1 0xFF47 &&& 0xFFFFF = 0x1FF47
  decide

theorem readObp0 : Statement .readObp0 := rfl

theorem writeObp0 (v : Byte) : Statement (.writeObp0 v) := by
  show commandWord 1 0xFF48 &&& 0xFFFFF = 0x1FF48
  decide

theorem readObp1 : Statement .readObp1 := rfl

theorem writeObp1 (v : Byte) : Statement (.writeObp1 v) := by
  show commandWord 1 0xFF49 &&& 0xFFFFF = 0x1FF49
  decide

theorem readWy : Statement .readWy := rfl

theorem writeWy (v : Byte) : Statement (.writeWy v) := by
  show commandWord 1 0xFF4A &&& 0xFFFFF = 0x1FF4A
  decide

theorem readWx : Statement .readWx := rfl

theorem writeWx (v : Byte) : Statement (.writeWx v) := by
  show commandWord 1 0xFF4B &&& 0xFFFFF = 0x1FF4B
  decide

theorem readOther (addr : Address) : Statement (.readOther addr) := by
  have := addr.isLt
  exact commandWord_highMask (k := 16) (p := 0) (by omega) (by omega) (by omega) (by omega)

theorem writeOther (addr : Address) (v : Byte) : Statement (.writeOther addr v) := by
  have := addr.isLt
  exact commandWord_highMask (k := 16) (p := 1) (by omega) (by omega) (by omega) (by omega)

theorem step (cycles : Nat) : Statement (.step cycles) := by
  show commandWord 2 0 &&& 0xFFFFF = 0x20000
  decide

theorem preboot : Statement .preboot := rfl

theorem powerOn : Statement .powerOn := rfl

theorem registerObserver (o : Option ObserverRef) : Statement (.registerObserver o) := by
  show commandWord 5 0 &&& 0xFFFFF = 0x50000
  decide

theorem getFramebuffer : Statement .getFramebuffer := rfl

end Sys2Proof.Laws.RowMatch
end

