-- ==== Sys2Proof/Laws/Timing.lean ====
section
/-! SUPPORT. What each transition of the timing state machine does, field by field; the two step policies; the step itself by cases. -/

namespace Sys2Proof.Machine

variable (s : State)

/-! ### The renderers write one row -/

/-- The background renderer writes a row of line LY and nothing else. -/
theorem State.renderBgLine_eq : ∃ r, s.renderBgLine = s.setFbRow s.regs.ly.toNat r := ⟨_, rfl⟩

/-- The sprite renderer writes a row of line LY and nothing else. -/
theorem State.renderSpritesLine_eq : ∃ r, s.renderSpritesLine = s.setFbRow s.regs.ly.toNat r := by
  unfold State.renderSpritesLine
  split
  · exact ⟨_, (s.setFbRow_fbRow _).symm⟩
  · exact ⟨_, rfl⟩

theorem State.setFbRow_eq (y : Nat) (r : Row) : ∃ f, s.setFbRow y r = s.setFb f := by
  unfold State.setFbRow
  split
  · exact ⟨_, rfl⟩
  · exact ⟨s.fb, rfl⟩

theorem State.renderBgLine_setFb : s.renderBgLine = s.setFb s.renderBgLine.fb := by
  obtain ⟨r, h⟩ := s.renderBgLine_eq
  obtain ⟨f, hf⟩ := s.setFbRow_eq s.regs.ly.toNat r
  rw [h, hf]
  rfl

theorem State.renderSpritesLine_setFb : s.renderSpritesLine = s.setFb s.renderSpritesLine.fb := by
  obtain ⟨r, h⟩ := s.renderSpritesLine_eq
  obtain ⟨f, hf⟩ := s.setFbRow_eq s.regs.ly.toNat r
  rw [h, hf]
  rfl

/-- The framebuffer after both renderers. -/
def State.renderedFb : Frame := s.renderBgLine.renderSpritesLine.fb

/-- Both renderers together change the framebuffer alone. -/
theorem State.render_eq : s.renderBgLine.renderSpritesLine = s.setFb s.renderedFb := by
  refine s.renderBgLine.renderSpritesLine_setFb.trans ?_
  unfold State.renderedFb
  generalize s.renderBgLine.renderSpritesLine.fb = f
  rw [s.renderBgLine_setFb]
  rfl

/-- Both renderers together leave every row but LY's as it was. -/
theorem State.render_pixel {z : Nat} (h : z ≠ s.regs.ly.toNat) (x : Nat) :
    s.renderedFb.pixel z x = s.viewPixel z x := by
  obtain ⟨r, hr⟩ := s.renderBgLine_eq
  obtain ⟨q, hq⟩ := s.renderBgLine.renderSpritesLine_eq
  have e : s.renderedFb.pixel z x = s.renderBgLine.renderSpritesLine.viewPixel z x := rfl
  have hl : s.renderBgLine.regs = s.regs := by rw [hr]; simp
  rw [e, hq, State.setFbRow_pixel, dif_neg (by rw [hl]; exact fun c => h c.1), hr, State.setFbRow_pixel,
    dif_neg fun c => h c.1]

/-! ### The transitions -/

theorem State.leaveOamSearch_eq :
    s.leaveOamSearch = { s with clk := s.clk - s.threshold, mode := .vramTransfer } := rfl

/-- The state in which the renderers run. -/
abbrev State.rendering : State := { s with clk := s.clk - s.threshold, mode := .hblank }

theorem State.leaveVramTransfer_eq :
    s.leaveVramTransfer = { s with
      clk := s.clk - s.threshold, mode := .hblank, fb := s.rendering.renderedFb
      outputs := s.outputs ++ (if s.regs.statHi.getLsbD 0 then irqs s.cfg [.lcdStat] else []) } := by
  have e : s.spend.setMode .hblank = s.rendering := rfl
  unfold State.leaveVramTransfer
  rw [e, State.render_eq]
  apply State.ext <;> simp [State.hblankIntEnable]

theorem State.enterVBlank_eq :
    s.enterVBlank = { s with
      mode := .vblank
      outputs := s.outputs ++ [.event .frameComplete] ++ s.observer.toList.map Output.observerCall ++
        irqs s.cfg [.vblank] ++ (if s.regs.statHi.getLsbD 1 then irqs s.cfg [.lcdStat] else []) } := by
  unfold State.enterVBlank
  apply State.ext <;> simp [State.vblankIntEnable]

theorem ly_succ_eq (a b : Byte) (h : b ≠ 0) : a + 1 = b ↔ a = b - 1 := by
  constructor
  · rintro rfl
    bv_omega
  · rintro rfl
    bv_omega

theorem State.leaveHBlank_of_ne (h : s.regs.ly ≠ 143) :
    s.leaveHBlank = { s with
      clk := s.clk - s.threshold, mode := .oamSearch, regs := { s.regs with ly := s.regs.ly + 1 } } := by
  have h' : ¬ s.regs.ly + 1 = 144 := by
    intro c
    exact h ((ly_succ_eq _ _ (by decide)).mp c)
  show (if s.regs.ly + 1 = 144 then s.spend.nextLine.enterVBlank else s.spend.nextLine.setMode .oamSearch) = _
  rw [if_neg h']
  rfl

theorem State.leaveHBlank_of_eq (h : s.regs.ly = 143) :
    s.leaveHBlank = { s with
      clk := s.clk - s.threshold, mode := .vblank, regs := { s.regs with ly := 144 }
      outputs := s.outputs ++ [.event .frameComplete] ++ s.observer.toList.map Output.observerCall ++
        irqs s.cfg [.vblank] ++ (if s.regs.statHi.getLsbD 1 then irqs s.cfg [.lcdStat] else []) } := by
  unfold State.leaveHBlank
  simp [State.nextLine, State.spend, h, RegBank.set, State.setReg, State.setRegs, State.setClk, State.enterVBlank_eq]

theorem State.leaveVBlankLine_of_ne (h : s.regs.ly ≠ 153) :
    s.leaveVBlankLine = { s with clk := s.clk - s.threshold, regs := { s.regs with ly := s.regs.ly + 1 } } := by
  have h' : ¬ s.regs.ly + 1 = 154 := by
    intro c
    exact h ((ly_succ_eq _ _ (by decide)).mp c)
  show (if s.regs.ly + 1 = 154 then (s.spend.nextLine.setMode .oamSearch).setReg .ly 0x00 else s.spend.nextLine) = _
  rw [if_neg h']
  rfl

theorem State.leaveVBlankLine_of_eq (h : s.regs.ly = 153) :
    s.leaveVBlankLine = { s with
      clk := s.clk - s.threshold, mode := .oamSearch, regs := { s.regs with ly := 0 } } := by
  unfold State.leaveVBlankLine
  simp [State.nextLine, State.spend, h, RegBank.set, State.setReg, State.setRegs, State.setClk, State.setMode]

/-- The outputs a transition adds are a list of its own: the events of R104 or R106, none for the other two. -/
theorem State.leaveMode_cases :
    (s.mode = .oamSearch ∧ s.leaveMode = { s with clk := s.clk - s.threshold, mode := .vramTransfer }) ∨
    (s.mode = .vramTransfer ∧ s.leaveMode = { s with
      clk := s.clk - s.threshold, mode := .hblank, fb := s.rendering.renderedFb
      outputs := s.outputs ++ (if s.regs.statHi.getLsbD 0 then irqs s.cfg [.lcdStat] else []) }) ∨
    (s.mode = .hblank ∧ s.regs.ly ≠ 143 ∧ s.leaveMode = { s with
      clk := s.clk - s.threshold, mode := .oamSearch, regs := { s.regs with ly := s.regs.ly + 1 } }) ∨
    (s.mode = .hblank ∧ s.regs.ly = 143 ∧ s.leaveMode = { s with
      clk := s.clk - s.threshold, mode := .vblank, regs := { s.regs with ly := 144 }
      outputs := s.outputs ++ [.event .frameComplete] ++ s.observer.toList.map Output.observerCall ++
        irqs s.cfg [.vblank] ++ (if s.regs.statHi.getLsbD 1 then irqs s.cfg [.lcdStat] else []) }) ∨
    (s.mode = .vblank ∧ s.regs.ly ≠ 153 ∧ s.leaveMode = { s with
      clk := s.clk - s.threshold, mode := .vblank, regs := { s.regs with ly := s.regs.ly + 1 } }) ∨
    (s.mode = .vblank ∧ s.regs.ly = 153 ∧ s.leaveMode = { s with
      clk := s.clk - s.threshold, mode := .oamSearch, regs := { s.regs with ly := 0 } }) := by
  unfold State.leaveMode
  cases h : s.mode
  · exact .inl ⟨rfl, s.leaveOamSearch_eq⟩
  · exact .inr (.inl ⟨rfl, s.leaveVramTransfer_eq⟩)
  · by_cases hl : s.regs.ly = 143
    · exact .inr (.inr (.inr (.inl ⟨rfl, hl, s.leaveHBlank_of_eq hl⟩)))
    · exact .inr (.inr (.inl ⟨rfl, hl, s.leaveHBlank_of_ne hl⟩))
  · by_cases hl : s.regs.ly = 153
    · exact .inr (.inr (.inr (.inr (.inr ⟨rfl, hl, s.leaveVBlankLine_of_eq hl⟩))))
    · exact .inr (.inr (.inr (.inr (.inl ⟨rfl, hl, by rw [s.leaveVBlankLine_of_ne hl, h]⟩))))

theorem State.modeCase_of_le (h : s.threshold ≤ s.clk) : s.modeCase = s.leaveMode := if_pos h

theorem State.modeCase_of_lt (h : s.clk < s.threshold) : s.modeCase = s := if_neg (by omega)

@[simp] theorem State.leaveMode_cfg : s.leaveMode.cfg = s.cfg := by
  rcases s.leaveMode_cases with ⟨-, e⟩ | ⟨-, e⟩ | ⟨-, -, e⟩ | ⟨-, -, e⟩ | ⟨-, -, e⟩ | ⟨-, -, e⟩ <;> rw [e]

/-- Every transition takes its mode's threshold off the clock. -/
@[simp] theorem State.leaveMode_clk : s.leaveMode.clk = s.clk - s.threshold := by
  rcases s.leaveMode_cases with ⟨-, e⟩ | ⟨-, e⟩ | ⟨-, -, e⟩ | ⟨-, -, e⟩ | ⟨-, -, e⟩ | ⟨-, -, e⟩ <;> rw [e]

/-- What a transition leaves unchanged: every register but LY, both memories, the observer, and the model's own fields
but the outputs. -/
theorem State.leaveMode_frame :
    s.leaveMode = { s with
      mode := s.leaveMode.mode, clk := s.leaveMode.clk, regs := { s.regs with ly := s.leaveMode.regs.ly }
      fb := s.leaveMode.fb, outputs := s.leaveMode.outputs } := by
  rcases s.leaveMode_cases with ⟨-, e⟩ | ⟨-, e⟩ | ⟨-, -, e⟩ | ⟨-, -, e⟩ | ⟨-, -, e⟩ | ⟨-, -, e⟩ <;> rw [e]

/-- R5 makes every threshold at least 1. -/
theorem modeThreshold_pos {c : Config} (h : c.ok) (m : Mode) : 1 ≤ modeThreshold c m := by
  obtain ⟨h1, h2, h3, -⟩ := h
  cases m <;> simp [modeThreshold, h1, h2, h3]

/-- A transition keeps mode and line in agreement and moves on by no cycle of the frame, modulo 70224 (R115). -/
theorem State.leaveMode_place (hc : s.cfg.ok) (hl : s.regs.ly.toNat ≤ 153)
    (hm : s.mode = .vblank ↔ 144 ≤ s.regs.ly.toNat) (hle : s.threshold ≤ s.clk) :
    s.leaveMode.regs.ly.toNat ≤ 153 ∧ (s.leaveMode.mode = .vblank ↔ 144 ≤ s.leaveMode.regs.ly.toNat) ∧
      s.leaveMode.framePos % 70224 = s.framePos % 70224 := by
  obtain ⟨-, -, -, hsum⟩ := hc
  have hsum : s.cfg.tOam + s.cfg.tVram + s.cfg.tHBlank = 456 := hsum
  have hly : ∀ b : Byte, b.toNat < 255 → (b + 1).toNat = b.toNat + 1 := fun b hb => by
    rw [BitVec.toNat_add]
    simp
    omega
  have ht : s.threshold = modeThreshold s.cfg s.mode := rfl
  have hv : Config.tVBlankLine = 456 := rfl
  rcases s.leaveMode_cases with ⟨c, e⟩ | ⟨c, e⟩ | ⟨c, d, e⟩ | ⟨c, d, e⟩ | ⟨c, d, e⟩ | ⟨c, d, e⟩ <;>
    rw [e] <;> simp only [State.framePos, c, modeOffset, modeThreshold] at ht hm ⊢
  · simp at hm ⊢
    omega
  · simp at hm ⊢
    omega
  · have h143 : s.regs.ly.toNat ≠ 143 := fun q => d (BitVec.eq_of_toNat_eq q)
    rw [hly _ (by omega)]
    simp at hm ⊢
    omega
  · rw [d]
    simp
    omega
  · have h153 : s.regs.ly.toNat ≠ 153 := fun q => d (BitVec.eq_of_toNat_eq q)
    rw [hly _ (by omega)]
    simp at hm ⊢
    omega
  · rw [d]
    simp
    omega

/-- On schedule the place is one of the frame's 70224 cycles. -/
theorem State.framePos_lt (hc : s.cfg.ok) (h : s.onSchedule) : s.framePos < 70224 := by
  obtain ⟨hl, hm, hk⟩ := h
  obtain ⟨-, -, -, hsum⟩ := hc
  have hsum : s.cfg.tOam + s.cfg.tVram + s.cfg.tHBlank = 456 := hsum
  have hv : Config.tVBlankLine = 456 := rfl
  have hk : s.clk < modeThreshold s.cfg s.mode := hk
  cases c : s.mode <;> simp only [State.framePos, c, modeOffset, modeThreshold] at hk ⊢ <;> omega

/-! ### The loop policy -/

/-- A property that every transition keeps is kept by any number of them. -/
theorem State.settle_keeps {P : State → Prop} (hP : ∀ t : State, P t → P t.leaveMode) (n : Nat) :
    ∀ t : State, P t → P (State.settle n t) := by
  induction n with
  | zero => exact fun _ h => h
  | succ n ih =>
    intro t h
    unfold State.settle
    split
    · exact ih _ (hP t h)
    · exact h

/-- A property that every transition keeps is kept by the mode handling of either policy. -/
theorem State.handleMode_keeps {P : State → Prop} (hP : ∀ t : State, P t → P t.leaveMode) (h : P s) :
    P s.handleMode := by
  unfold State.handleMode
  split
  · unfold State.modeCase
    split
    · exact hP s h
    · exact h
  · exact State.settle_keeps hP _ s h

theorem State.handleMode_single (h : s.cfg.stepPolicy = .single) : s.handleMode = s.modeCase := by
  simp [State.handleMode, h]

/-- Inside the window the loop does nothing, however many turns it is given. -/
theorem State.settle_of_lt (h : s.clk < s.threshold) (n : Nat) : State.settle n s = s := by
  cases n with
  | zero => rfl
  | succ n =>
    unfold State.settle
    rw [if_neg (by omega)]

/-- Inside the window neither policy does anything. -/
theorem State.handleMode_of_lt (h : s.clk < s.threshold) : s.handleMode = s := by
  unfold State.handleMode
  split
  · exact s.modeCase_of_lt h
  · exact s.settle_of_lt h _

@[simp] theorem State.modeCase_cfg : s.modeCase.cfg = s.cfg := by
  unfold State.modeCase
  split
  · exact s.leaveMode_cfg
  · rfl

@[simp] theorem State.transitions_cfg (k : Nat) : ∀ t : State, (State.transitions k t).cfg = t.cfg := by
  induction k with
  | zero => exact fun _ => rfl
  | succ k ih =>
    intro t
    rw [State.transitions, ih, State.modeCase_cfg]

/-- One transition more is one at the end. -/
theorem State.transitions_succ (k : Nat) : ∀ t : State, State.transitions (k + 1) t = (State.transitions k t).modeCase := by
  induction k with
  | zero => exact fun _ => rfl
  | succ k ih =>
    intro t
    rw [State.transitions, ih]
    rfl

/-- The loop is some number of transitions, each taken with the clock at or past the threshold; it ends below, where R5
holds and it has turns enough (R112). -/
theorem State.settle_eq (n : Nat) : ∀ t : State,
    ∃ k, State.settle n t = State.transitions k t ∧ (t.cfg.ok → t.clk ≤ n → (State.settle n t).clockOk) ∧
      ∀ j, j < k → ¬ (State.transitions j t).clockOk := by
  induction n with
  | zero =>
    refine fun t => ⟨0, rfl, fun hc hn => ?_, fun j hj => absurd hj (Nat.not_lt_zero j)⟩
    have := modeThreshold_pos hc t.mode
    have hu : t.threshold = modeThreshold t.cfg t.mode := rfl
    show t.clk < t.threshold
    omega
  | succ n ih =>
    intro t
    unfold State.settle
    split
    · rename_i hle
      obtain ⟨k, he, hb, hj⟩ := ih t.leaveMode
      refine ⟨k + 1, ?_, fun hc hn => hb ?_ ?_, fun j hjk => ?_⟩
      · rw [he, State.transitions, State.modeCase_of_le _ hle]
      · rw [State.leaveMode_cfg]
        exact hc
      · have hp := modeThreshold_pos hc t.mode
        have hu : t.threshold = modeThreshold t.cfg t.mode := rfl
        rw [State.leaveMode_clk]
        omega
      · cases j with
        | zero =>
          show ¬ t.clk < t.threshold
          omega
        | succ j =>
          rw [State.transitions, State.modeCase_of_le _ hle]
          exact hj j (by omega)
    · rename_i hgt
      refine ⟨0, rfl, fun _ _ => ?_, fun j hj => absurd hj (Nat.not_lt_zero j)⟩
      show t.clk < t.threshold
      omega

/-! ### STEP -/

theorem execStep_disabled (h : s.regs.lcdc.getLsbD 7 = false) (n : Nat) :
    execStep n s = .next { s with mode := .vblank, clk := 456, regs := { s.regs with ly := 153 } } := by
  have hd : s.displayOn = false := h
  simp only [execStep, hd]
  rfl

theorem execStep_enabled (h : s.regs.lcdc.getLsbD 7 = true) (n : Nat) :
    execStep n s = .next (State.handleMode { s with clk := s.clk + n }).compared := by
  have hd : s.displayOn = true := h
  simp only [execStep, hd, if_true]
  rw [State.stepEnabled, State.compareLine_eq]
  rfl

/-- Under the single policy an enabled STEP is at most one transition and the comparison. -/
theorem execStep_single (h : s.regs.lcdc.getLsbD 7 = true) (hp : s.cfg.stepPolicy = .single) (n : Nat) :
    execStep n s = .next
      (if s.threshold ≤ s.clk + n then State.leaveMode { s with clk := s.clk + n }
       else { s with clk := s.clk + n }).compared := by
  rw [execStep_enabled s h, State.handleMode_single { s with clk := s.clk + n } hp]
  rfl

/-- A property kept by every transition, by the disabled path, by a longer clock and by the comparison is kept by STEP. -/
theorem execStep_keeps {P : State → Prop} {t : State} {n : Nat}
    (hd : P { s with mode := .vblank, clk := 456, regs := { s.regs with ly := 153 } })
    (hc : P { s with clk := s.clk + n })
    (hl : ∀ u : State, P u → P u.leaveMode) (hk : ∀ u : State, P u → P u.compared)
    (h : execStep n s = .next t) : P t := by
  cases hb : s.regs.lcdc.getLsbD 7 with
  | false =>
    rw [execStep_disabled s hb] at h
    cases h
    exact hd
  | true =>
    rw [execStep_enabled s hb] at h
    cases h
    exact hk _ (State.handleMode_keeps _ hl hc)

end Sys2Proof.Machine
end

