-- ==== Sys2Proof/Laws/Rendering.lean ====
section
/-! SUPPORT. What the pixel loops of the sprite renderer leave in one column, what the winner under hw_priority is, and what the renderers depend on. -/

namespace Sys2Proof.Machine

variable (s : State) (sp : Sprite) (y : Nat)

/-- A pixel changes its own column alone, and only when it is not transparent (R206, R209). -/
theorem State.drawPixel_getElem (row : Row) (px : Nat) {x : Nat} (hx : x < 160) :
    (s.drawPixel sp y row px)[x] =
      if sp.left + (px : Int) = x ∧ s.spriteColour sp y px ≠ 0 then
        sp.compose (s.spriteShade sp (s.spriteColour sp y px)) row[x]
      else row[x] := by
  unfold State.drawPixel
  by_cases hc : s.spriteColour sp y px = 0
  · simp [hc]
  · simp only [hc, if_false, ne_eq, not_false_eq_true, and_true]
    split
    · rename_i h
      by_cases hpx : sp.left + (px : Int) = x
      · have e : (sp.left + (px : Int)).toNat = x := by omega
        simp [hpx]
      · have e : (sp.left + (px : Int)).toNat ≠ x := by omega
        rw [if_neg hpx, Vector.getElem_set_ne _ _ e]
    · rename_i h
      have h' : ¬ (0 ≤ sp.left + (px : Int) ∧ (sp.left + (px : Int)).toNat < 160) := h
      exact (if_neg fun hpx => h' ⟨by omega, by omega⟩).symm

/-- The first `n` pixels of a sprite leave in column `x` what its one pixel there asks for. -/
theorem State.drawPixels_getElem (row : Row) (n : Nat) {x : Nat} (hx : x < 160) :
    ((List.range n).foldl (s.drawPixel sp y) row)[x] =
      if sp.left ≤ x ∧ (x : Int) < sp.left + n ∧ s.spriteColour sp y ((x : Int) - sp.left).toNat ≠ 0 then
        sp.compose (s.spriteShade sp (s.spriteColour sp y ((x : Int) - sp.left).toNat)) row[x]
      else row[x] := by
  induction n with
  | zero =>
    rw [if_neg (by omega)]
    rfl
  | succ n ih =>
    rw [List.range_succ, List.foldl_append, List.foldl_cons, List.foldl_nil, State.drawPixel_getElem _ _ _ _ _ hx, ih]
    by_cases hn : sp.left + (n : Int) = x
    · have e : ((x : Int) - sp.left).toNat = n := by omega
      rw [e, if_neg (fun h => absurd h.2.1 (by omega) :
        ¬ (sp.left ≤ x ∧ (x : Int) < sp.left + n ∧ s.spriteColour sp y n ≠ 0))]
      by_cases hc : s.spriteColour sp y n = 0
      · simp [hc]
      · rw [if_pos ⟨hn, hc⟩, if_pos ⟨by omega, by push_cast; omega, hc⟩]
    · rw [if_neg fun h => hn h.1]
      have e : (sp.left ≤ x ∧ (x : Int) < sp.left + n ∧ s.spriteColour sp y ((x : Int) - sp.left).toNat ≠ 0) ↔
          (sp.left ≤ x ∧ (x : Int) < sp.left + ((n + 1 : Nat) : Int) ∧
            s.spriteColour sp y ((x : Int) - sp.left).toNat ≠ 0) := by
        refine and_congr_right fun _ => and_congr_left fun _ => ?_
        push_cast
        omega
      rw [if_congr e rfl rfl]

/-- One entry leaves in column `x` its opaque pixel composed over the shade there, or that shade (R203, R206 to R209). -/
theorem State.drawSprite_getElem (row : Row) (n : Nat) {x : Nat} (hx : x < 160) :
    (s.drawSprite y row n)[x] =
      if s.onLine (s.sprite n) y then
        match s.opaqueAt (s.sprite n) y x with
        | some c => (s.sprite n).compose (s.spriteShade (s.sprite n) c) row[x]
        | none   => row[x]
      else row[x] := by
  unfold State.drawSprite
  split
  · rw [State.drawPixels_getElem _ _ _ _ _ hx]
    unfold State.opaqueAt
    by_cases hin : (s.sprite n).left ≤ x ∧ (x : Int) < (s.sprite n).left + 8
    · by_cases hc : s.spriteColour (s.sprite n) y ((x : Int) - (s.sprite n).left).toNat = 0
      · simp [hc]
      · simp only [hin, hc, true_and, and_self, if_true, if_false]
        rw [if_pos ⟨by exact_mod_cast hin.2, hc⟩]
    · rw [if_neg hin, if_neg fun h => hin ⟨h.1, by exact_mod_cast h.2.1⟩]
  · rfl

/-- An opaque pixel's colour index is not 0 (R206). -/
theorem State.opaqueAt_ne_zero {x : Nat} {c : Shade} (h : s.opaqueAt sp y x = some c) : c ≠ 0 := by
  unfold State.opaqueAt at h
  split at h
  · dsimp only at h
    split at h
    · cases h
    · rename_i hc
      cases h
      exact hc
  · cases h

/-- A loop over the entries acts on each column by itself. -/
theorem foldl_getElem {f : Row → Nat → Row} {g : Shade → Nat → Shade} {x : Nat} (hx : x < 160)
    (h : ∀ row n, (f row n)[x] = g row[x] n) (l : List Nat) :
    ∀ row : Row, (l.foldl f row)[x] = l.foldl g row[x] := by
  induction l with
  | nil => exact fun _ => rfl
  | cons n l ih =>
    intro row
    rw [List.foldl_cons, List.foldl_cons, ih, h]

/-- Among the first `k` entries the winner so far is a candidate that no candidate beats; none if there is none (R211). -/
theorem State.winner_spec (x k : Nat) :
    match (List.range k).foldl (s.betterSprite y x) none with
    | none   => ∀ m, m < k → s.candidate y x m = false
    | some b => b < k ∧ s.candidate y x b = true ∧ ∀ m, m < k → s.candidate y x m = true →
        (s.sprite b).x.toNat < (s.sprite m).x.toNat ∨ ((s.sprite b).x.toNat = (s.sprite m).x.toNat ∧ b ≤ m) := by
  induction k with
  | zero => exact fun m hm => absurd hm (Nat.not_lt_zero m)
  | succ k ih =>
    rw [List.range_succ, List.foldl_append, List.foldl_cons, List.foldl_nil]
    generalize (List.range k).foldl (s.betterSprite y x) none = best at ih
    unfold State.betterSprite
    by_cases hk : s.candidate y x k = true
    · rw [if_pos hk]
      cases best with
      | none =>
        refine ⟨by omega, hk, fun m hm hc => ?_⟩
        rcases Nat.lt_succ_iff_lt_or_eq.mp hm with hm | rfl
        · rw [ih m hm] at hc
          cases hc
        · exact .inr ⟨rfl, le_refl _⟩
      | some b =>
        obtain ⟨hb, hcb, hmin⟩ := ih
        by_cases hlt : (s.sprite k).x.toNat < (s.sprite b).x.toNat
        · simp only [if_pos hlt]
          refine ⟨by omega, hk, fun m hm hc => ?_⟩
          rcases Nat.lt_succ_iff_lt_or_eq.mp hm with hm | rfl
          · have := hmin m hm hc
            left
            omega
          · exact .inr ⟨rfl, le_refl _⟩
        · simp only [if_neg hlt]
          refine ⟨by omega, hcb, fun m hm hc => ?_⟩
          rcases Nat.lt_succ_iff_lt_or_eq.mp hm with hm | rfl
          · exact hmin m hm hc
          · omega
    · rw [if_neg hk]
      have hk' : s.candidate y x k = false := by simpa using hk
      cases best with
      | none =>
        intro m hm
        rcases Nat.lt_succ_iff_lt_or_eq.mp hm with hm | rfl
        · exact ih m hm
        · exact hk'
      | some b =>
        obtain ⟨hb, hcb, hmin⟩ := ih
        refine ⟨by omega, hcb, fun m hm hc => ?_⟩
        rcases Nat.lt_succ_iff_lt_or_eq.mp hm with hm | rfl
        · exact hmin m hm hc
        · rw [hk'] at hc
          cases hc

/-- No winner: no entry is a candidate for the column. -/
theorem State.winner_eq_none {x : Nat} (h : s.winner y x = none) {m : Nat} (hm : m < 40) :
    s.candidate y x m = false := by
  have hw := s.winner_spec y x 40
  rw [show (List.range 40).foldl (s.betterSprite y x) none = s.winner y x from rfl, h] at hw
  exact hw m hm

/-- The winner is a candidate of the smallest SX, and of the lowest index among those (R211). -/
theorem State.winner_eq_some {x b : Nat} (h : s.winner y x = some b) :
    b < 40 ∧ s.candidate y x b = true ∧ ∀ m, m < 40 → s.candidate y x m = true →
      (s.sprite b).x.toNat < (s.sprite m).x.toNat ∨ ((s.sprite b).x.toNat = (s.sprite m).x.toNat ∧ b ≤ m) := by
  have hw := s.winner_spec y x 40
  rw [show (List.range 40).foldl (s.betterSprite y x) none = s.winner y x from rfl, h] at hw
  exact hw

/-- A pixel behind the background shows only over shade 0 (R208). -/
theorem Sprite.compose_eq (new old : Shade) :
    sp.compose new old = if sp.attr.getLsbD 7 = true ∧ old ≠ 0 then old else new := by
  unfold Sprite.compose Sprite.behind
  by_cases h1 : sp.attr.getLsbD 7 = true
  · by_cases h2 : old = 0
    · rw [if_pos h1, if_pos h2, if_neg fun h => h.2 h2]
    · rw [if_pos h1, if_neg h2, if_pos ⟨h1, h2⟩]
  · rw [if_neg h1, if_neg fun h => h1 h.1]

/-- A slot of a palette in plain arithmetic (R33). -/
theorem palette_toNat (p : Byte) (c : Shade) : (palette p c).toNat = p.toNat / 2 ^ (2 * c.toNat) % 4 := by
  simp [palette, BitVec.toNat_setWidth, BitVec.toNat_ushiftRight, Nat.shiftRight_eq_div_pow]

/-- A colour index in plain arithmetic (R75). -/
theorem colourIndex_toNat (lo hi : Byte) (b : Nat) :
    (colourIndex lo hi b).toNat = hi.toNat / 2 ^ b % 2 * 2 + lo.toNat / 2 ^ b % 2 := by
  have e : ∀ v : Byte, v.toNat / 2 ^ b % 2 = if v.getLsbD b then 1 else 0 := fun v => by
    have := Nat.testBit_eq_decide_div_mod_eq (x := v.toNat) (i := b)
    rw [BitVec.getLsbD, this]
    rcases Nat.mod_two_eq_zero_or_one (v.toNat / 2 ^ b) with h | h <;> simp [h]
  rw [e, e]
  unfold colourIndex
  cases hi.getLsbD b <;> cases lo.getLsbD b <;> rfl

/-! ### What the renderers read -/

/-- Two states agree on all that the renderers read (R60): the rest of the state may differ. -/
structure State.SameView (s t : State) : Prop where
  mode  : s.mode = t.mode
  lcdc  : ∀ b, b ≠ 5 → b ≠ 6 → s.regs.lcdc.getLsbD b = t.regs.lcdc.getLsbD b
  scy   : s.regs.scy = t.regs.scy
  scx   : s.regs.scx = t.regs.scx
  ly    : s.regs.ly = t.regs.ly
  bgp   : s.regs.bgp = t.regs.bgp
  obp0  : s.regs.obp0 = t.regs.obp0
  obp1  : s.regs.obp1 = t.regs.obp1
  vram  : s.vramByte = t.vramByte
  oam   : s.oamByte = t.oamByte
  fb    : s.fb = t.fb
  order : s.cfg.spriteOrder = t.cfg.spriteOrder
  gated : s.cfg.spriteEnableGated = t.cfg.spriteEnableGated

namespace State.SameView

variable {s t : State} (h : s.SameView t)
include h

theorem lcdcBit {b : Nat} (h5 : b ≠ 5) (h6 : b ≠ 6) : s.lcdcBit b = t.lcdcBit b := h.lcdc b h5 h6

theorem memRead : s.memRead = t.memRead := by
  funext a
  have e : s.vramBlocked = t.vramBlocked := by
    rw [State.vramBlocked, State.vramBlocked, State.displayOn, State.displayOn, h.mode,
      h.lcdcBit (b := 7) (by decide) (by decide)]
  rw [State.memRead, State.memRead, State.readVram, State.readVram, e, h.vram]

theorem bgShade : s.bgShade = t.bgShade := by
  funext y x
  have e : ∀ b, b ≠ 5 → b ≠ 6 → s.lcdcBit b = t.lcdcBit b := fun b h5 h6 => h.lcdcBit h5 h6
  simp only [State.bgShade, State.bgColour, e 0 (by decide) (by decide), e 3 (by decide) (by decide),
    e 4 (by decide) (by decide), h.scy, h.scx, h.bgp, h.memRead]

theorem setFbRow (y : Nat) (r : Row) : (s.setFbRow y r).fb = (t.setFbRow y r).fb := by
  unfold State.setFbRow
  split
  · rw [State.setFb_fb, State.setFb_fb, h.fb]
  · exact h.fb

theorem renderBgLine : s.renderBgLine.fb = t.renderBgLine.fb := by
  unfold State.renderBgLine
  rw [h.bgShade, h.ly, h.setFbRow]

theorem spriteHeight : s.spriteHeight = t.spriteHeight := by
  rw [State.spriteHeight, State.spriteHeight, h.lcdcBit (by decide) (by decide)]

theorem sprite : s.sprite = t.sprite := by
  funext n
  simp only [State.sprite, h.oam]

theorem onLine : s.onLine = t.onLine := by
  funext sp y
  simp only [State.onLine, h.spriteHeight]

theorem spriteColour : s.spriteColour = t.spriteColour := by
  funext sp y px
  simp only [State.spriteColour, h.spriteHeight, h.memRead]

theorem opaqueAt : s.opaqueAt = t.opaqueAt := by
  funext sp y x
  simp only [State.opaqueAt, h.spriteColour]

theorem spriteShade : s.spriteShade = t.spriteShade := by
  funext sp c
  simp only [State.spriteShade, h.obp0, h.obp1]

theorem drawSprite : s.drawSprite = t.drawSprite := by
  have e : s.drawPixel = t.drawPixel := by
    funext sp y row px
    simp only [State.drawPixel, h.spriteColour, h.spriteShade]
  funext y row n
  simp only [State.drawSprite, h.sprite, h.onLine, e]

theorem candidate : s.candidate = t.candidate := by
  funext y x n
  rw [State.candidate, State.candidate, h.sprite, h.onLine, h.opaqueAt]

theorem winner : s.winner = t.winner := by
  have e : s.betterSprite = t.betterSprite := by
    funext y x best n
    simp only [State.betterSprite, h.candidate, h.sprite]
  funext y x
  rw [State.winner, State.winner, e]

theorem spritesOver : s.spritesOver = t.spritesOver := by
  funext y row
  simp only [State.spritesOver, State.overwriteRow, State.priorityRow, State.priorityShade, h.order, h.drawSprite,
    h.winner, h.opaqueAt, h.sprite, h.spriteShade]

theorem renderSpritesLine : s.renderSpritesLine.fb = t.renderSpritesLine.fb := by
  have e : s.spritesGated = t.spritesGated := by
    rw [State.spritesGated, State.spritesGated, h.gated, h.lcdcBit (by decide) (by decide)]
  have hr : s.fbRow = t.fbRow := by
    funext y
    simp only [State.fbRow, h.fb]
  unfold State.renderSpritesLine
  rw [e]
  split
  · exact h.fb
  · rw [h.ly, h.spritesOver, hr, h.setFbRow]

/-- The frame both renderers leave depends on nothing else. -/
theorem renderedFb : s.renderedFb = t.renderedFb := by
  unfold State.renderedFb
  apply renderSpritesLine
  have hb := h.renderBgLine
  rw [s.renderBgLine_setFb, t.renderBgLine_setFb, hb]
  constructor
  all_goals first | exact rfl | skip
  exacts [h.mode, h.lcdc, h.scy, h.scx, h.ly, h.bgp, h.obp0, h.obp1, h.vram, h.oam, h.order, h.gated]

end State.SameView

end Sys2Proof.Machine
end

