-- ==== Sys2Proof/Tests/Slice0.lean ====
section
/-! SUPPORT. Small tests against the spec's own examples and vectors, the decoding of every constructor from a word written out from R70 to R72, the refusals, and a witness for the hypotheses of every statement. -/

namespace Sys2Proof.Tests

open Sys2Proof.Machine

/-! ### Helpers -/

/-- The state after an instruction. -/
def after (i : Instr) (s : State) : State :=
  match exec i s with
  | .next t => t
  | .fault _ => s
  | .refused _ => s

/-- A state `(mode, clk, LY)` of 95_test_vectors.md with the given LCDC, MEM_INIT 0x00 as the vectors take it, and all
else as at reset. -/
def at' (lcdc : Byte) (m : Mode) (clk : Nat) (ly : Byte) : State :=
  { State.reset with mode := m, clk := clk, memFill := some 0x00, regs := { RegBank.reset with lcdc := lcdc, ly := ly } }

/-- The same state under the loop policy. -/
def looping (s : State) : State := { s with cfg := { s.cfg with stepPolicy := .loop } }

/-- The tuple `(mode, clk, LY, coinc)` of 95_test_vectors.md. -/
def tuple (s : State) : Mode × Nat × Byte × Bool := (s.mode, s.clk, s.regs.ly, s.coinc)

/-- The first `n` shades of a row. -/
def shades (s : State) (y n : Nat) : List Shade := (List.range n).map fun x => s.viewPixel y x

/-- A state about to render line `ly`: STEP 1 ends its VRAMTransfer (95_test_vectors.md, L2.5 and L2.6). -/
def rendering (lcdc : Byte) (ly : Byte) (vram oam : Memory) : State :=
  { State.reset with
    mode := .vramTransfer, clk := 171, vram := vram, oam := oam, memFill := some 0x00
    regs := { RegBank.reset with lcdc := lcdc, ly := ly, bgp := 0xE4, obp0 := 0xE4, obp1 := 0x1B } }

/-- The refusal a step answers, if it refuses. -/
def refusal (c : HostCall) : Option Refusal :=
  match step { State.reset with calls := [c] } with
  | .next _ => none
  | .fault e => nomatch e
  | .refused r => some r

/-! ### WellFormed: the catch-all rows refuse every address of the map (R56, R72) -/

theorem test_wellFormed_refuses_vram : Instr.wellFormed (.readOther 0x8000) = false := by decide
theorem test_wellFormed_refuses_vram_end : Instr.wellFormed (.writeOther 0x9FFF 0x12) = false := by decide
theorem test_wellFormed_refuses_oam : Instr.wellFormed (.writeOther 0xFE00 0x12) = false := by decide
theorem test_wellFormed_refuses_oam_end : Instr.wellFormed (.readOther 0xFE9F) = false := by decide
theorem test_wellFormed_refuses_register : Instr.wellFormed (.readOther 0xFF40) = false := by decide
theorem test_wellFormed_refuses_register_end : Instr.wellFormed (.writeOther 0xFF4B 0) = false := by decide
theorem test_wellFormed_takes_edges :
    [0x7FFF, 0xA000, 0xFDFF, 0xFEA0, 0xFF3F, 0xFF4C].all (fun a => Instr.wellFormed (.readOther a)) = true := by decide

/-! ### Decoding: words written out from the class of R71 (four bits) and the address of R56 (sixteen bits) -/

theorem test_decode_memory_reads :
    decode ⟨0b0000_1000_0000_0001_0000#20, .none⟩ = .ok (.readVram 0x0010) ∧
    decode ⟨0b0000_1001_1111_1111_1111#20, .none⟩ = .ok (.readVram 0x1FFF) ∧
    decode ⟨0b0000_1111_1110_0111_1111#20, .none⟩ = .ok (.readOamLo 127) ∧
    decode ⟨0b0000_1111_1110_1000_0000#20, .none⟩ = .ok (.readOamHi 0) := by decide

theorem test_decode_memory_writes :
    decode ⟨0b0001_1000_0000_0000_0001#20, .value 0x33⟩ = .ok (.writeVram 1 0x33) ∧
    decode ⟨0b0001_1111_1110_0000_0001#20, .value 0xBB⟩ = .ok (.writeOamLo 1 0xBB) ∧
    decode ⟨0b0001_1111_1110_1001_1111#20, .value 255⟩ = .ok (.writeOamHi 31 0xFF) := by decide

theorem test_decode_register_reads :
    decode ⟨0b0000_1111_1111_0100_0000#20, .none⟩ = .ok .readLcdc ∧
    decode ⟨0b0000_1111_1111_0100_0001#20, .none⟩ = .ok .readStat ∧
    decode ⟨0b0000_1111_1111_0100_0010#20, .none⟩ = .ok .readScy ∧
    decode ⟨0b0000_1111_1111_0100_0011#20, .none⟩ = .ok .readScx ∧
    decode ⟨0b0000_1111_1111_0100_0100#20, .none⟩ = .ok .readLy ∧
    decode ⟨0b0000_1111_1111_0100_0101#20, .none⟩ = .ok .readLyc ∧
    decode ⟨0b0000_1111_1111_0100_0110#20, .none⟩ = .ok .readDma ∧
    decode ⟨0b0000_1111_1111_0100_0111#20, .none⟩ = .ok .readBgp ∧
    decode ⟨0b0000_1111_1111_0100_1000#20, .none⟩ = .ok .readObp0 ∧
    decode ⟨0b0000_1111_1111_0100_1001#20, .none⟩ = .ok .readObp1 ∧
    decode ⟨0b0000_1111_1111_0100_1010#20, .none⟩ = .ok .readWy ∧
    decode ⟨0b0000_1111_1111_0100_1011#20, .none⟩ = .ok .readWx := by decide

theorem test_decode_register_writes :
    decode ⟨0b0001_1111_1111_0100_0000#20, .value 0x91⟩ = .ok (.writeLcdc 0x91) ∧
    decode ⟨0b0001_1111_1111_0100_0001#20, .value 0x40⟩ = .ok (.writeStat 0x40) ∧
    decode ⟨0b0001_1111_1111_0100_0010#20, .value 1⟩ = .ok (.writeScy 1) ∧
    decode ⟨0b0001_1111_1111_0100_0011#20, .value 2⟩ = .ok (.writeScx 2) ∧
    decode ⟨0b0001_1111_1111_0100_0100#20, .value 0x77⟩ = .ok (.writeLy 0x77) ∧
    decode ⟨0b0001_1111_1111_0100_0101#20, .value 3⟩ = .ok (.writeLyc 3) ∧
    decode ⟨0b0001_1111_1111_0100_0110#20, .value 0xC0⟩ = .ok (.writeDma 0xC0) ∧
    decode ⟨0b0001_1111_1111_0100_0111#20, .value 0xE4⟩ = .ok (.writeBgp 0xE4) ∧
    decode ⟨0b0001_1111_1111_0100_1000#20, .value 4⟩ = .ok (.writeObp0 4) ∧
    decode ⟨0b0001_1111_1111_0100_1001#20, .value 5⟩ = .ok (.writeObp1 5) ∧
    decode ⟨0b0001_1111_1111_0100_1010#20, .value 6⟩ = .ok (.writeWy 6) ∧
    decode ⟨0b0001_1111_1111_0100_1011#20, .value 7⟩ = .ok (.writeWx 7) := by decide

theorem test_decode_others :
    decode ⟨0b0000_1010_0000_0000_0000#20, .none⟩ = .ok (.readOther 0xA000) ∧
    decode ⟨0b0000_1111_1110_1010_0000#20, .none⟩ = .ok (.readOther 0xFEA0) ∧
    decode ⟨0b0000_1111_1111_0100_1100#20, .none⟩ = .ok (.readOther 0xFF4C) ∧
    decode ⟨0b0001_0000_0000_0000_0000#20, .value 9⟩ = .ok (.writeOther 0 9) ∧
    decode ⟨0b0010_0000_0000_0000_0000#20, .cycles 4⟩ = .ok (.step 4) ∧
    decode ⟨0b0011_0000_0000_0000_0000#20, .none⟩ = .ok .preboot ∧
    decode ⟨0b0100_0000_0000_0000_0000#20, .none⟩ = .ok .powerOn ∧
    decode ⟨0b0101_0000_0000_0000_0000#20, .observer (some 1)⟩ = .ok (.registerObserver (some 1)) ∧
    decode ⟨0b0110_0000_0000_0000_0000#20, .none⟩ = .ok .getFramebuffer := by decide

/-- R73, R80; L2.1. -/
theorem test_decode_refusals :
    decode ⟨0x20001#20, .cycles 4⟩ = .error .addrNotZero ∧
    decode ⟨0x70000#20, .none⟩ = .error .reservedClass ∧
    decode ⟨0xF1234#20, .none⟩ = .error .reservedClass ∧
    decode ⟨0x1FF47#20, .value 256⟩ = .error .valueTooWide ∧
    decode ⟨0x20000#20, .none⟩ = .error .wrongOperand := by decide

theorem test_decodeTableWord_longest_row : decodeTableWord 24 0x1FE80 = some (.writeOamHi 0 0) := by decide
theorem test_decodeTableWord_refuses_wide_word : decodeTableWord 24 0x100000 = none := by decide

/-- `WRS` writes ascending addresses (R83). -/
theorem test_assemble_wrs :
    assemble (.wrs 0x8000 [0x0F, 0x33]) = [.write 0x8000 0x0F, .write 0x8001 0x33] := by decide

/-- `LINE` is STEP 80, 172, 204 (R83). -/
theorem test_assemble_line :
    assemble .line = [⟨0x20000, .cycles 80⟩, ⟨0x20000, .cycles 172⟩, ⟨0x20000, .cycles 204⟩] := by decide

/-! ### The step -/

theorem test_step_refuses_reserved_class :
    refusal ⟨0x70000#20, .none⟩ = some (.noSuchCommand .reservedClass) := by decide

theorem test_placed_word_runs_first :
    (match step (State.reset.withFetchWord 24 0x0FF41) with
      | .next t => t.result
      | .fault e => nomatch e
      | .refused _ => .nothing) = .byte 0x01 := by decide

/-! ### Register bank (L2.3, and the examples of the rules) -/

/-- RB1. -/
theorem test_stat_rb1 :
    (after .readStat (after (.writeStat 0xFF) (at' 0x91 .oamSearch 0 5))).result = .byte 0xFA := by decide

/-- RB2. -/
theorem test_stat_rb2 :
    (after .readStat { after (.writeStat 0x40) (at' 0x91 .hblank 0 0) with coinc := true }).result =
      .byte 0x44 := by decide

/-- RB3. -/
theorem test_ly_rb3 :
    tuple (after (.writeLy 0x77) (at' 0x91 .hblank 9 0x50)) = (.hblank, 9, 0x00, false) ∧
    (after .readLy (after (.writeLy 0x77) (at' 0x91 .hblank 9 0x50))).result = .byte 0x00 := by decide

/-- RB4. -/
theorem test_readOther_rb4 :
    (after (.readOther 0xFF4C) State.reset).result = .byte 0x00 ∧
    (after (.readOther 0xFF4C) State.reset).events = [.log .readUnrecognized 0xFF4C] := by decide

/-- RB6. -/
theorem test_writeOther_rb6 :
    (after (.writeOther 0xFEA0 0x12) State.reset).events = [.log .writeUnrecognized 0xFEA0] ∧
    (after (.writeOther 0xFEA0 0x12) State.reset).oam = [] := by decide

/-- RB7. -/
theorem test_readDma_rb7 :
    (after .readDma State.reset).result = .byte 0x00 ∧
    (after .readDma State.reset).events = [.log .readUnrecognized 0xFF46] := by decide

/-- RB8. -/
theorem test_scx_rb8 : (after .readScx (after (.writeScx 0xFD) State.reset)).result = .byte 0xFD := by decide

theorem test_scy : (after .readScy (after (.writeScy 0xFE) State.reset)).result = .byte 0xFE := by decide

theorem test_lyc : (after .readLyc (after (.writeLyc 0x02) State.reset)).result = .byte 0x02 := by decide

theorem test_bgp : (after .readBgp (after (.writeBgp 0xE4) State.reset)).result = .byte 0xE4 := by decide

theorem test_obp0 :
    (after .readObp0 (after (.writeObp1 0x1B) (after (.writeObp0 0xE4) State.reset))).result = .byte 0xE4 := by decide

theorem test_obp1 :
    (after .readObp1 (after (.writeObp0 0xE4) (after (.writeObp1 0x1B) State.reset))).result = .byte 0x1B := by decide

/-- RB10. -/
theorem test_wy_rb10 : (after .readWy (after (.writeWy 0x20) State.reset)).result = .byte 0x20 := by decide

theorem test_wx :
    (after .readWx (after (.writeWy 0x20) (after (.writeWx 0x07) State.reset))).result = .byte 0x07 := by decide

/-- RB9: VRAM[0x10] = 0x3C is blocked in VRAMTransfer and free at once when LCDC bit 7 is cleared. -/
theorem test_lcdc_rb9 :
    (after (.readVram 0x10) { at' 0x91 .vramTransfer 0 0 with vram := [(0x10, 0x3C)] }).result = .byte 0x00 ∧
    (after (.readVram 0x10)
      (after (.writeLcdc 0x11) { at' 0x91 .vramTransfer 0 0 with vram := [(0x10, 0x3C)] })).result = .byte 0x3C ∧
    (after .readLcdc (after (.writeLcdc 0x11) State.reset)).result = .byte 0x11 := by decide

/-- L2.3, the columns of 0x8011: stored in OAMSearch, dropped in VRAMTransfer. -/
theorem test_writeVram :
    (after (.writeVram 0x11 0xAA) (at' 0x91 .oamSearch 0 0)).vram = [(0x11, 0xAA)] ∧
    (after (.writeVram 0x11 0xAA) (at' 0x91 .vramTransfer 0 0)).vram = [] := by decide

/-- L2.3, the columns of 0xFE00: blocked in OAMSearch, free in HBlank. -/
theorem test_readOamLo :
    (after (.readOamLo 0) { at' 0x91 .oamSearch 0 0 with oam := [(0, 0x77)] }).result = .byte 0x00 ∧
    (after (.readOamLo 0) { at' 0x91 .hblank 0 0 with oam := [(0, 0x77)] }).result = .byte 0x77 := by decide

/-- L2.3, the columns of 0xFE01. -/
theorem test_writeOamLo :
    (after (.writeOamLo 1 0xBB) (at' 0x91 .oamSearch 0 0)).oam = [] ∧
    (after (.writeOamLo 1 0xBB) (at' 0x91 .vblank 0 150)).oam = [(1, 0xBB)] ∧
    (after (.writeOamLo 1 0xBB) (at' 0x11 .vramTransfer 0 0)).oam = [(1, 0xBB)] := by decide

/-- OAM offset 159 is the last byte of the array (R136, R143). -/
theorem test_oamHi :
    (after (.writeOamHi 31 0x05) (at' 0x91 .hblank 0 0)).oam = [(159, 0x05)] ∧
    (after (.readOamHi 31) (after (.writeOamHi 31 0x05) (at' 0x91 .hblank 0 0))).result = .byte 0x05 := by decide

/-! ### DMA (L2.4) -/

/-- P2: the page 0xC000 begins 0x10, 0x08, 0x01. The free value is not needed: all 160 answers are fixed here. -/
def page : List Host.Cell :=
  [(0xC000, 0x10), (0xC001, 0x08), (0xC002, 0x01)] ++ (List.range 157).map fun i => (0xC003 + i, 0x00)

theorem test_writeDma_p2 :
    let s := after (.writeDma 0xC0) { at' 0x93 .oamSearch 4 0 with extMem := page }
    [0, 1, 2, 3, 159].map s.oamByte = [0x10, 0x08, 0x01, 0x00, 0x00] ∧ s.oam.length = 160 := by decide +kernel

/-- DM2. -/
theorem test_writeDma_dm2 :
    let s := { State.reset with cfg := { Config.default with mmuPresent := false }, oam := [(0, 0x55)] }
    (after (.writeDma 0x12) s).oam = [(0, 0x55)] ∧ (after (.writeDma 0x12) s).outputs = [] := by decide

/-! ### STEP (L1.3, L2.2) -/

/-- L1.3, first row: coincidence is not recomputed, and STAT reads 0x41 afterwards. -/
theorem test_step_disabled :
    let s := after (.step 10) (after (.writeStat 0x40) (at' 0x11 .vramTransfer 100 77))
    tuple s = (.vblank, 456, 153, false) ∧ s.events = [] ∧ (after .readStat s).result = .byte 0x41 := by decide

/-- T1, the example of R100. -/
theorem test_step_t1 : tuple (after (.step 12) (at' 0x91 .oamSearch 70 5)) = (.vramTransfer, 2, 5, false) := by decide

/-- T3: entry to VBlank with STAT bits 4 and 6 set and LYC 144 makes all four events; T4: STAT reads 0x55. -/
theorem test_step_t3_t4 :
    let s := after (.step 4) (after (.writeLyc 144) (after (.writeStat 0x50) (at' 0x91 .hblank 200 143)))
    tuple s = (.vblank, 0, 144, true) ∧
    s.events = [.frameComplete, .irq .vblank, .irq .lcdStat, .irq .lcdStat] ∧
    (after .readStat s).result = .byte 0x55 := by decide

/-- T6. -/
theorem test_step_t6 : tuple (after (.step 1) (at' 0x91 .vblank 455 153)) = (.oamSearch, 0, 0, true) := by decide

/-- T8: under the loop policy one STEP makes three transitions and renders line 0. -/
theorem test_step_t8 :
    tuple (after (.step 500) (looping (at' 0x91 .oamSearch 0 0))) =
      (.oamSearch, 44, 1, false) := by decide +kernel

/-! ### Rendering (L2.5, L2.6) -/

/-- T2 and L1.8: the request of HBlank entry, and the pattern 0,0,2,2,1,1,3,3 repeating to the last columns. -/
theorem test_render_l18 :
    let s := after (.step 1) (after (.writeStat 0x08) (rendering 0x91 0 [(0, 0x0F), (1, 0x33)] []))
    s.events = [.irq .lcdStat] ∧ s.mode = .hblank ∧ shades s 0 16 = [0, 0, 2, 2, 1, 1, 3, 3, 0, 0, 2, 2, 1, 1, 3, 3] ∧
    s.viewPixel 0 159 = 3 := by decide +kernel

/-- L1.8, the display-value row, with SHADE[1] = 0xAA and SHADE[2] = 0x55 injected; and a table whose ends are swapped. -/
theorem test_display_l18 :
    let s := after (.step 1) (rendering 0x91 0 [(0, 0x0F), (1, 0x33)] [])
    let shown := fun (t : ShadeTable) =>
      (List.range 8).map (State.displayPixel { s with cfg := { s.cfg with shades := t } } 0)
    shown { Config.default.shades with shade1 := some 0xAA, shade2 := some 0x55 } =
      [0xEB, 0xEB, 0x55, 0x55, 0xAA, 0xAA, 0x00, 0x00] ∧
    shown ⟨0x00, some 0x55, some 0xAA, 0xEB⟩ = [0x00, 0x00, 0xAA, 0xAA, 0x55, 0x55, 0xEB, 0xEB] := by decide +kernel

/-- BG2: signed tile indices from 0x9000. -/
theorem test_render_bg2 :
    shades (after (.step 1) (rendering 0x81 0
      [(0, 0xFF), (1, 0xFF), (0x801, 0xFF), (0x1000, 0xFF), (0x1801, 0x80)] [])) 0 16 =
      [1, 1, 1, 1, 1, 1, 1, 1, 2, 2, 2, 2, 2, 2, 2, 2] := by decide +kernel

/-- L1.6: background disabled. -/
theorem test_render_bg_off :
    shades (after (.step 1) (rendering 0x90 0 [(0, 0x0F), (1, 0x33)] [])) 0 8 = [0, 0, 0, 0, 0, 0, 0, 0] := by
  decide +kernel

/-- SP8: OBP1, colour 0 transparent, colour 3 mapped to shade 0. -/
theorem test_render_sp8 :
    shades (after (.step 1) (rendering 0x93 0 [(16, 0x0F), (17, 0x33), (30, 0xFF)]
      [(0, 16), (1, 8), (2, 1), (3, 0x10)])) 0 8 = [0, 0, 1, 1, 2, 2, 0, 0] := by decide +kernel

/-- SP13: behind the background only shade 0 lets the sprite through. -/
theorem test_render_sp13 :
    shades (after (.step 1) (rendering 0x93 0 [(0, 0xF0), (32, 0xFF), (33, 0xFF)]
      [(0, 16), (1, 8), (2, 2), (3, 0x80)])) 0 8 = [1, 1, 1, 1, 3, 3, 3, 3] := by decide +kernel

/-- SP16 and SP17: the overlap goes to the later entry, or under hw_priority to the smaller X. -/
theorem test_render_sp16_sp17 :
    let s := rendering 0x93 0 [(32, 0xFF), (33, 0xFF)]
      [(0, 16), (1, 8), (2, 2), (4, 16), (5, 12), (6, 2), (7, 0x10)]
    shades (after (.step 1) s) 0 12 = [3, 3, 3, 3, 0, 0, 0, 0, 0, 0, 0, 0] ∧
    shades (after (.step 1) { s with cfg := { Config.default with spriteOrder := .hwPriority } }) 0 12 =
      [3, 3, 3, 3, 3, 3, 3, 3, 0, 0, 0, 0] := by decide +kernel

/-- L1.7, third row: an 8×16 sprite flipped vertically reads row 15 of the even tile. -/
theorem test_render_l17 :
    shades (after (.step 1) (rendering 0x97 0 [(0x21, 0xFF), (0x30, 0xFF), (0x3E, 0xF0), (0x3F, 0xF0)]
      [(0, 16), (1, 8), (2, 3), (3, 0x40)])) 0 8 = [3, 3, 3, 3, 0, 0, 0, 0] := by decide +kernel

/-! ### Frame sink and reset (L2.7, L2.8) -/

/-- FS1, FS3: only the last observer registered is called, between FRAME_COMPLETE and the request. -/
theorem test_observer_fs1_fs3 :
    (after (.step 4) (after (.registerObserver (some 2)) (after (.registerObserver (some 1))
      (at' 0x91 .hblank 200 143)))).outputs =
      [.event .frameComplete, .observerCall 2, .event (.irq .vblank)] := by decide

/-- FS5. -/
theorem test_getFramebuffer_fs5 :
    (after .getFramebuffer (after .powerOn State.reset)).result = .framebufferView ∧
    State.viewPixel (after .powerOn State.reset) 143 159 = 0 := by decide

/-- RS1, RS3. -/
theorem test_powerOn_rs1_rs3 :
    (after .readStat (after .powerOn (at' 0x91 .hblank 5 7))).result = .byte 0x01 ∧
    (after .readLy (after (.step 4) (after .powerOn State.reset))).result = .byte 0x99 := by decide

/-- R271: a byte that the run fixes, one that its image fills, and one that nobody fixes, which is a free value. -/
theorem test_powerOn_draws_memory :
    let s := after .powerOn { State.reset with memDraws := [⟨[(7, 0x01)], [], some 0x5A⟩] }
    (s.vramByte 7, s.vramByte 8, s.oamByte 159) = (0x01, 0x5A, 0x5A) ∧
    (after .powerOn s).vramByte 7 = Config.vramInit 2 7 := ⟨by decide, rfl⟩

/-- RS6: PREBOOT resets LY and leaves mode, clock and coincidence. -/
theorem test_preboot_rs4_rs6 :
    tuple (after .preboot (at' 0x91 .vramTransfer 100 5)) = (.vramTransfer, 100, 0, false) ∧
    (after .readBgp (after .preboot State.reset)).result = .byte 0xFC ∧
    (after .readObp1 (after .preboot State.reset)).result = .byte 0xFF := by decide

/-! ### Witnesses: for each statement with hypotheses, a concrete state and operands that meet them, each clause at a boundary -/

/-- The default configuration meets R5. -/
theorem test_witness_configOk : Config.default.ok ∧ (at' 0x91 .oamSearch 0 0).configOk := by decide

theorem test_witness_DecodeOfEncode : Instr.wellFormed (.readOther 0xFEA0) = true := by decide

/-- Also for DecodedWordMatchesTableRow. -/
theorem test_witness_EncodeOfDecode : decode ⟨0x0FEA0#20, .none⟩ = .ok (.readOther 0xFEA0) := by decide

theorem test_witness_CallsThatSpellNoCommandAreRefused :
    7 ≤ (0x70000#20).toNat / 0x10000 ∧
    (2 ≤ (0x20001#20).toNat / 0x10000 ∧ (0x20001#20).toNat % 0x10000 ≠ 0) ∧
    ((0x10000#20).toNat / 0x10000 = 1 ∧ ∃ v, Operand.value 256 = .value v ∧ 255 < v) :=
  ⟨by decide, by decide, by decide, 256, rfl, by decide⟩

/-- Also, with `decodeTableWord`, for PlacedWordRunsNext. -/
theorem test_witness_StepRunsTheDecodedCall :
    (State.reset.withFetchWord 24 0x30000).calls = ⟨0x30000#20, .none⟩ :: [] ∧
    decode ⟨0x30000#20, .none⟩ = .ok .preboot ∧ decodeTableWord 24 0x30000 = some .preboot := by decide

theorem test_witness_IdleStepChangesNothing : State.reset.calls = [] := rfl

theorem test_witness_OnlyUnservedAccessesAreLogged :
    (∃ t, exec (.readOther 0x0000) State.reset = .next t) ∧ (∃ t, exec .readDma State.reset = .next t) ∧
    (∃ t, exec (.writeOther 0xFFFF 0) State.reset = .next t) ∧
    (∃ t, exec (.readVram 0) (at' 0x91 .vramTransfer 0 0) = .next t) ∧
    State.reset.outputs = [] ∧ (at' 0x91 .vramTransfer 0 0).outputs = [] :=
  ⟨⟨_, rfl⟩, ⟨_, rfl⟩, ⟨_, rfl⟩, ⟨_, rfl⟩, rfl, rfl⟩

theorem test_witness_VramArbiter_blocked :
    let s := { at' 0x80 .vramTransfer 0 0 with vram := [(0, 1), (8191, 2)] }
    s.regs.lcdc.getLsbD 7 = true ∧ s.mode = .vramTransfer := by decide

theorem test_witness_VramArbiter_free :
    let s := { at' 0x7F .vramTransfer 0 0 with vram := [(0, 1), (8191, 2)] }
    ¬ (s.regs.lcdc.getLsbD 7 = true ∧ s.mode = .vramTransfer) := by decide

/-- Both modes; also for DmaWritesBehindTheArbiter. -/
theorem test_witness_OamArbiter_blocked :
    let s := { at' 0x80 .oamSearch 0 0 with oam := [(0, 1), (159, 2)] }
    s.regs.lcdc.getLsbD 7 = true ∧ s.cfg.mmuPresent = true ∧ s.mode = .oamSearch ∧
    (at' 0x80 .vramTransfer 0 0).mode = .vramTransfer := by decide

theorem test_witness_OamArbiter_free :
    let s := { at' 0x80 .hblank 0 0 with oam := [(0, 1), (159, 2)] }
    ¬ (s.regs.lcdc.getLsbD 7 = true ∧ (s.mode = .oamSearch ∨ s.mode = .vramTransfer)) := by decide

theorem test_witness_DmaCopiesOnePage : State.reset.cfg.mmuPresent = true := rfl

/-- The clause of the default codes. -/
theorem test_witness_StatReadsStoredBitsFlagAndMode : State.reset.cfg.modeCodes = Config.default.modeCodes := rfl

theorem test_witness_DmaWithoutMemoryIsNoOp :
    ({ State.reset with cfg := { Config.default with mmuPresent := false } } : State).cfg.mmuPresent = false := rfl

/-- Both clauses: an image to come, and none. -/
theorem test_witness_PowerOnCreatesTheCoreState :
    ({ State.reset with memDraws := [⟨[(0, 1)], [(159, 2)], none⟩] } : State).memDraws =
      ⟨[(0, 1)], [(159, 2)], none⟩ :: [] ∧
    State.reset.memDraws = [] ∧ ∃ t, exec .powerOn State.reset = .next t := ⟨rfl, rfl, _, rfl⟩

theorem test_witness_DisabledStepForcesVBlank : (at' 0x7F .oamSearch 0 0).regs.lcdc.getLsbD 7 = false := by decide

theorem test_witness_EnabledStepEndsWithTheComparison : (at' 0x80 .hblank 0 0).regs.lcdc.getLsbD 7 = true := by decide

/-- One cycle short of each window, by STEP 1. -/
theorem test_witness_StepInsideTheWindowOnlyCounts :
    (at' 0x80 .oamSearch 78 0).clk + 1 < (at' 0x80 .oamSearch 78 0).threshold ∧
    (at' 0x80 .vramTransfer 170 0).clk + 1 < (at' 0x80 .vramTransfer 170 0).threshold ∧
    (at' 0x80 .hblank 202 0).clk + 1 < (at' 0x80 .hblank 202 0).threshold ∧
    (at' 0x80 .vblank 454 150).clk + 1 < (at' 0x80 .vblank 454 150).threshold := by decide

/-- Both clauses, on either side of 80. -/
theorem test_witness_OamSearchStep :
    let s := at' 0x80 .oamSearch 79 0
    s.regs.lcdc.getLsbD 7 = true ∧ s.cfg.stepPolicy = .single ∧ s.mode = .oamSearch ∧
    s.cfg.tOam ≤ s.clk + 1 ∧ s.clk + 0 < s.cfg.tOam := by decide

theorem test_witness_VramTransferStep :
    let s := at' 0x80 .vramTransfer 171 0
    s.regs.lcdc.getLsbD 7 = true ∧ s.cfg.stepPolicy = .single ∧ s.mode = .vramTransfer ∧
    s.cfg.tVram ≤ s.clk + 1 := by decide

theorem test_witness_HBlankStepToTheNextLine :
    let s := at' 0x80 .hblank 203 142
    s.regs.lcdc.getLsbD 7 = true ∧ s.cfg.stepPolicy = .single ∧ s.mode = .hblank ∧
    s.cfg.tHBlank ≤ s.clk + 1 ∧ s.regs.ly ≠ 143 := by decide

/-- Also the single policy of VBlankRequestOnlyOnEntry, where the one transition enters VBlank. -/
theorem test_witness_HBlankStepToVBlank :
    let s := at' 0x80 .hblank 203 143
    s.regs.lcdc.getLsbD 7 = true ∧ s.cfg.stepPolicy = .single ∧ s.mode = .hblank ∧
    s.cfg.tHBlank ≤ s.clk + 1 ∧ s.regs.ly = 143 ∧ s.cfg.cpuPresent = true ∧ ∃ t, exec (.step 1) s = .next t :=
  ⟨by decide, rfl, rfl, by decide, rfl, rfl, _, rfl⟩

/-- Both clauses: line 152 and line 153. -/
theorem test_witness_VBlankStep :
    (at' 0x80 .vblank 455 152).regs.lcdc.getLsbD 7 = true ∧ (at' 0x80 .vblank 455 152).cfg.stepPolicy = .single ∧
    (at' 0x80 .vblank 455 152).mode = .vblank ∧ 456 ≤ (at' 0x80 .vblank 455 152).clk + 1 ∧
    (at' 0x80 .vblank 455 152).regs.ly ≠ 153 ∧ (at' 0x80 .vblank 455 153).regs.ly = 153 := by decide

theorem test_witness_OneThresholdPerSingleStep :
    (at' 0x91 .oamSearch 0 0).regs.lcdc.getLsbD 7 = true ∧ (at' 0x91 .oamSearch 0 0).cfg.stepPolicy = .single ∧
    (at' 0x91 .oamSearch 0 0).threshold ≤ (at' 0x91 .oamSearch 0 0).clk + 500 := by decide

/-- Also the second clause of ModeClockBound. -/
theorem test_witness_LoopStepRunsUntilTheClockIsInside :
    let s := looping (at' 0x80 .oamSearch 0 0)
    s.cfg.ok ∧ s.regs.lcdc.getLsbD 7 = true ∧ s.cfg.stepPolicy = .loop := by decide

/-- The first clause at the longest short step and the last cycle of a window; the third at LCDC bit 7 clear.
Also for StepAdvancesThePlaceInTheFrame. -/
theorem test_witness_ModeClockBound :
    let s := at' 0x80 .hblank 203 143
    s.cfg.ok ∧ s.regs.lcdc.getLsbD 7 = true ∧ s.cfg.stepPolicy = .single ∧ s.clockOk ∧ s.shortStep 80 ∧
    s.onSchedule ∧ (at' 0x7F .hblank 203 143).cfg.ok ∧ (at' 0x7F .hblank 203 143).regs.lcdc.getLsbD 7 = false := by
  decide

theorem test_witness_StepAdvancesThePlaceInTheFrame_lastCycle :
    (at' 0x80 .vblank 455 153).onSchedule ∧ (at' 0x80 .vblank 455 153).framePos = 70223 := by decide

theorem test_witness_ReEnablingStartsTheFrame :
    (at' 0x11 .hblank 5 9).regs.lcdc.getLsbD 7 = false ∧ (0x91 : Byte).getLsbD 7 = true ∧
    (at' 0x11 .hblank 5 9).cfg.stepPolicy = .single ∧
    (looping (at' 0x11 .hblank 5 9)).cfg.stepPolicy = .loop ∧ 79 < (looping (at' 0x11 .hblank 5 9)).cfg.tOam := by
  decide

/-- The loop policy: from HBlank of line 142 one STEP of a line makes four transitions, the last into VBlank, so it
requests once; the last clause: a disabled STEP, and a command that is no STEP. -/
theorem test_witness_VBlankRequestOnlyOnEntry :
    let s := looping (at' 0x80 .hblank 203 142)
    s.regs.lcdc.getLsbD 7 = true ∧ s.cfg.ok ∧ s.cfg.stepPolicy = .loop ∧ s.cfg.cpuPresent = true ∧
    (State.transitions 3 { s with clk := s.clk + 457 }).mode = .hblank ∧
    (State.transitions 3 { s with clk := s.clk + 457 }).regs.ly = 143 ∧
    (after (.step 457) s).events.count (.irq .vblank) = 1 ∧
    (∃ t, exec (.step 1) (at' 0x7F .hblank 203 143) = .next t) ∧
    (at' 0x7F .hblank 203 143).regs.lcdc.getLsbD 7 = false ∧
    (∃ t, exec .preboot s = .next t) ∧ ¬ ∃ n, Instr.preboot = .step n :=
  ⟨by decide, by decide, rfl, rfl, by decide +kernel, by decide +kernel, by decide +kernel, ⟨_, rfl⟩, by decide,
    ⟨_, rfl⟩, fun ⟨_, h⟩ => by cases h⟩

theorem test_witness_AtMostFourEventsPerSingleStep :
    State.reset.cfg.stepPolicy = .single ∧ State.reset.outputs = [] := by decide

theorem test_witness_AbsentCpuOnlyDropsRequests :
    (at' 0x91 .hblank 203 143).cfg.cpuPresent = true ∧ (at' 0x91 .hblank 203 143).outputs = [] ∧
    ∃ t, exec (.step 1) (at' 0x91 .hblank 203 143) = .next t := ⟨rfl, rfl, _, rfl⟩

/-- Also for EachStorageHasItsWriters, whose clauses it meets all at once. -/
theorem test_witness_OnlyStepMovesTheSequencer :
    (∃ t, exec .preboot State.reset = .next t) ∧ (∀ n, Instr.preboot ≠ .step n) ∧ Instr.preboot ≠ .powerOn ∧
    (∀ o v, Instr.preboot ≠ .writeVram o v) ∧ (∀ o v, Instr.preboot ≠ .writeOamLo o v) ∧
    (∀ o v, Instr.preboot ≠ .writeOamHi o v) ∧ (∀ v, Instr.preboot ≠ .writeDma v) ∧
    (∀ o, Instr.preboot ≠ .registerObserver o) := by
  refine ⟨⟨_, rfl⟩, ?_⟩
  simp

theorem test_witness_StepWritesNoRegisterButLy :
    ∃ t, exec (.step 80) (at' 0x91 .oamSearch 0 0) = .next t := ⟨_, rfl⟩

/-- Also for ConfigurationIsConstant. -/
theorem test_witness_InvariantKeptByEveryStep :
    let s := { at' 0x91 .hblank 203 143 with
      vram := [(8191, 1)], oam := [(159, 2)], calls := [encode (.step 1)], memDraws := [⟨[(0, 3)], [], some 0⟩] }
    s.Inv ∧ ∃ t, step s = .next t := ⟨by decide, _, rfl⟩

/-- Both clauses: a line other than LY, and a STEP that renders nothing. -/
theorem test_witness_OneRowPerSingleStep :
    (∃ t, exec (.step 1) (at' 0x91 .vramTransfer 170 143) = .next t) ∧
    (at' 0x91 .vramTransfer 170 143).cfg.stepPolicy = .single ∧
    142 ≠ (at' 0x91 .vramTransfer 170 143).regs.ly.toNat ∧
    ¬ (at' 0x91 .vramTransfer 170 143).cfg.tVram ≤ (at' 0x91 .vramTransfer 170 143).clk + 1 :=
  ⟨⟨_, rfl⟩, by decide⟩

/-- Both clauses, at the last line and the last column: the renderer in HBlank, and the STEP. -/
theorem test_witness_BackgroundPixelFormula :
    ((at' 0x83 .hblank 0 143).regs.lcdc.getLsbD 0 = true ∧ (at' 0x83 .hblank 0 143).regs.ly.toNat < 144 ∧
      (at' 0x83 .hblank 0 143).mode = .hblank) ∧
    let s := at' 0x81 .vramTransfer 171 143
    s.regs.lcdc.getLsbD 7 = true ∧ s.cfg.stepPolicy = .single ∧ s.mode = .vramTransfer ∧
    s.cfg.tVram ≤ s.clk + 1 ∧ s.regs.lcdc.getLsbD 0 = true ∧ s.cfg.spriteEnableGated = true ∧
    s.regs.lcdc.getLsbD 1 = false ∧ s.regs.ly.toNat < 144 ∧ 159 < 160 := by decide

theorem test_witness_DisabledBackgroundFillsShadeZero :
    (at' 0x90 .hblank 0 143).regs.lcdc.getLsbD 0 = false ∧ (at' 0x90 .hblank 0 143).regs.ly.toNat < 144 := by decide

theorem test_witness_WindowStateAffectsNoPixel :
    (∀ b, b ≠ 5 → b ≠ 6 → (0xF1 : Byte).getLsbD b = (at' 0x91 .vramTransfer 171 0).regs.lcdc.getLsbD b) ∧
    ∃ t, exec (.step 1) (at' 0x91 .vramTransfer 171 0) = .next t := by
  refine ⟨fun b h5 h6 => ?_, _, rfl⟩
  by_cases hb : b < 8
  · revert h6 h5
    interval_cases b <;> decide
  · rw [BitVec.getLsbD_of_ge _ _ (by omega), BitVec.getLsbD_of_ge _ _ (by omega)]

theorem test_witness_ObjectPaletteSlotZeroIsUnused :
    (3 : Byte).toNat / 4 = State.reset.regs.obp0.toNat / 4 ∧ (3 : Byte).toNat / 4 = State.reset.regs.obp1.toNat / 4 := by
  decide

theorem test_witness_TallSpritesIgnoreTheTileLowBit :
    (at' 0x97 .hblank 0 0).regs.lcdc.getLsbD 2 = true ∧ 39 < 40 := by decide

/-- The last line and the last column of an 8×16 sprite, an 8×8 sprite partly above and left of the screen, and a column
just past a sprite. -/
theorem test_witness_SpritePixelFormula :
    ((at' 0x97 .hblank 0 15).mode = .hblank ∧ (16 : Byte).toNat ≤ 15 + 16 ∧ 15 + 16 < (16 : Byte).toNat + 16 ∧
      (8 : Byte).toNat ≤ 7 + 8 ∧ 7 < (8 : Byte).toNat) ∧
    ((9 : Byte).toNat ≤ 0 + 16 ∧ 0 + 16 < (9 : Byte).toNat + 8 ∧ (1 : Byte).toNat ≤ 0 + 8 ∧ 0 < (1 : Byte).toNat) ∧
    ¬ ((8 : Byte).toNat ≤ 8 + 8 ∧ 8 < (8 : Byte).toNat) := by decide

theorem test_witness_OverwriteRowByColumns : State.reset.cfg.spriteOrder = .oamOverwrite := rfl

/-- The configuration with SPRITE_ORDER = hw_priority. -/
def byPriority (s : State) : State := { s with cfg := { s.cfg with spriteOrder := .hwPriority } }

/-- The first clause: column 0 with every entry off the line. -/
theorem test_witness_PriorityWinner_none :
    (byPriority (rendering 0x93 0 [] [])).cfg.spriteOrder = .hwPriority ∧
    ∀ n, n < 40 → (byPriority (rendering 0x93 0 [] [])).candidate 0 0 n = false := by decide +kernel

/-- The second clause: entry 0 and entry 1 on a tie of SX, the lowest index wins. -/
theorem test_witness_PriorityWinner_tie :
    let s := rendering 0x93 0 [(32, 0xFF), (33, 0xFF)] [(0, 16), (1, 8), (2, 2), (4, 16), (5, 8), (6, 2)]
    let s := byPriority { s with mode := .hblank }
    s.cfg.spriteOrder = .hwPriority ∧ s.onLine (s.sprite 0) 0 = true ∧ s.opaqueAt (s.sprite 0) 0 0 = some 3 ∧
    ∀ m, m < 40 → s.candidate 0 0 m = true →
      (s.sprite 0).x.toNat < (s.sprite m).x.toNat ∨ ((s.sprite 0).x = (s.sprite m).x ∧ 0 ≤ m) := by decide +kernel

theorem test_witness_BehindSpritesKeepANonzeroPixel :
    let s := { rendering 0x93 0 [(32, 0xFF), (33, 0xFF)] [(0, 16), (1, 8), (2, 2), (3, 0x80)] with mode := .hblank }
    (1 : Shade) ≠ 0 ∧ s.candidate 0 0 0 = true ∧
    ∀ n, n < 40 → s.candidate 0 0 n = true → (s.sprite n).attr.getLsbD 7 = true := by decide +kernel

/-- Both clauses, at the last line; the row is the blank one the framebuffer holds. -/
theorem test_witness_SpriteEnableGatesTheRenderer :
    (at' 0x91 .hblank 0 143).regs.ly.toNat < 144 ∧ (at' 0x91 .hblank 0 143).cfg.spriteEnableGated = true ∧
    (at' 0x91 .hblank 0 143).regs.lcdc.getLsbD 1 = false ∧ (at' 0x93 .hblank 0 143).regs.lcdc.getLsbD 1 = true ∧
    ∀ x : Fin 160, (Vector.replicate 160 0 : Row)[x] = (at' 0x93 .hblank 0 143).viewPixel 143 x.val := by
  decide +kernel

end Sys2Proof.Tests
end

section
/-! The timing state machine (R100 to R116): what the command STEP does. -/

namespace Sys2Proof.Machine

/-- STEP runs the sequencer's step; the laws of `execStep` then say what it does. -/
theorem exec_step (n : Nat) (s : State) : exec (.step n) s = execStep n s := rfl

/-- Settles O27: with LCDC bit 7 at 0 STEP takes the disabled path, whatever the mode, the clock and LY were (R101). -/
theorem disabledStepForcesVBlank : Obligations.DisabledStepForcesVBlank := by
  unfold Obligations.DisabledStepForcesVBlank
  intro s n hoff
  rw [exec_step]
  exact execStep_disabled s hoff n

end Sys2Proof.Machine
end

section
/-! The VRAM arbiter (R131): what READ_VRAM and WRITE_VRAM do, blocked and not blocked. -/

namespace Sys2Proof.Machine

/-- READ_VRAM returns the arbitrated read; the laws of `State.readVram` then say which byte that is. -/
theorem exec_readVram (off : BitVec 13) (s : State) :
    exec (.readVram off) s = .next { s with result := .byte (s.readVram off.toNat) } := rfl

/-- WRITE_VRAM is the arbitrated write; the laws of `State.writeVram` then say what it stores. -/
theorem exec_writeVram (off : BitVec 13) (v : Byte) (s : State) :
    exec (.writeVram off v) s = .next (s.writeVram off.toNat v) := rfl

theorem State.readVram_of_blocked {s : State} (h : s.vramBlocked = true) (o : Nat) : s.readVram o = 0x00 :=
  if_pos h

theorem State.writeVram_of_blocked {s : State} (h : s.vramBlocked = true) (o : Nat) (v : Byte) :
    s.writeVram o v = s :=
  if_pos h

theorem State.writeVram_of_not_blocked {s : State} (h : ¬ s.vramBlocked = true) (o : Nat) (v : Byte) :
    s.writeVram o v = { s with vram := Memory.write s.vram o v } :=
  if_neg h

/-- Settles O18: the statement's condition is the arbiter's own (`State.vramBlocked_iff`), and on each side of it the
read and the write have one law each. -/
theorem vramArbiter : Obligations.VramArbiter := by
  unfold Obligations.VramArbiter
  intro s off v
  rw [← State.vramBlocked_iff, exec_readVram, exec_writeVram]
  refine ⟨fun blocked => ⟨?_, ?_⟩, fun free => ⟨?_, Memory.write s.vram off.toNat v, ?_, ?_⟩⟩
  · rw [State.readVram_of_blocked blocked]
  · rw [State.writeVram_of_blocked blocked]
  · rw [State.readVram_of_not_blocked (Bool.eq_false_iff.mpr free)]
  · rw [State.writeVram_of_not_blocked free]
  · exact State.vramByte_write s off.toNat v

end Sys2Proof.Machine
end

section
/-! The background renderer (R180 to R186): the pixel it leaves in a column of its row, the disabled background, and the
scroll arithmetic. -/

namespace Sys2Proof.Machine

/-- The background renderer leaves the background's shade in every column of row LY (R180). -/
theorem State.renderBgLine_viewPixel (s : State) {x : Nat} (hy : s.regs.ly.toNat < 144) (hx : x < 160) :
    s.renderBgLine.viewPixel s.regs.ly.toNat x = s.bgShade s.regs.ly.toNat x := by
  rw [State.renderBgLine, State.setFbRow_pixel, dif_pos ⟨rfl, hy, hx⟩, Vector.getElem_ofFn]

/-- With LCDC bit 0 at 0 every shade is 0, without a look at BGP or VRAM (R186). -/
theorem State.bgShade_of_disabled {s : State} (h : s.regs.lcdc.getLsbD 0 = false) (y x : Nat) : s.bgShade y x = 0 :=
  if_neg (Bool.eq_false_iff.mp h)

/-- A disabled background leaves shade 0 in every column of row LY (R186). -/
theorem State.renderBgLine_viewPixel_of_disabled (s : State) {x : Nat} (hoff : s.regs.lcdc.getLsbD 0 = false)
    (hy : s.regs.ly.toNat < 144) (hx : x < 160) : s.renderBgLine.viewPixel s.regs.ly.toNat x = 0 := by
  rw [s.renderBgLine_viewPixel hy hx, State.bgShade_of_disabled hoff]

/-- Settles O51: the shade 0 of a disabled background holds in any state of that LCDC and LY, so also in the one with
BGP and VRAM replaced. -/
theorem disabledBackgroundFillsShadeZero : Obligations.DisabledBackgroundFillsShadeZero := by
  unfold Obligations.DisabledBackgroundFillsShadeZero
  intro s bgp vram x hoff hy hx
  exact State.renderBgLine_viewPixel_of_disabled { s with vram := vram, regs := { s.regs with bgp := bgp } } hoff hy hx

/-- 32 tiles of 8 pixels make 256, so a tile index may be taken from the sum wrapped at 8 bits (R181). -/
theorem tileIndex_wrapped (n : Nat) : n / 8 % 32 = n % 256 / 8 :=
  (Nat.mod_mul_right_div_self n 8 32).symm

/-- 8 divides 256, so a pixel's place in its tile may be taken from the sum wrapped at 8 bits (R181). -/
theorem tileOffset_wrapped (n : Nat) : n % 8 = n % 256 % 8 :=
  (Nat.mod_mod_of_dvd n (by decide : 8 ∣ 256)).symm

/-- Settles O52: the model takes the sums unwrapped, and wrapping them at 8 bits changes no tile index and no place in a
tile. -/
theorem scrollArithmeticWraps : Obligations.ScrollArithmeticWraps := by
  unfold Obligations.ScrollArithmeticWraps
  intro scy scx y x
  exact ⟨rfl, rfl, rfl, tileIndex_wrapped _, tileOffset_wrapped _, tileIndex_wrapped _⟩

end Sys2Proof.Machine
end

section
/-! Encoding and decoding (R70 to R73, R80, R81): a command and its encoding determine each other, and
what is refused. -/

namespace Sys2Proof

/-- An instruction encoded as the READ of an address that selects it decodes to itself. -/
theorem decode_encode_of_read {i : Instr} {a : Nat} (he : encode i = .read a) (ha : a < 0x10000)
    (hi : decodeRead (BitVec.ofNat 16 a) = i) : decode (encode i) = .ok i := by
  rw [he, decode_read ha, hi]

/-- An instruction encoded as the WRITE of a byte to an address that selects it decodes to itself. -/
theorem decode_encode_of_write {i : Instr} {a : Nat} {v : Byte} (he : encode i = .write a v) (ha : a < 0x10000)
    (hi : decodeWrite (BitVec.ofNat 16 a) v = i) : decode (encode i) = .ok i := by
  rw [he, decode_write ha, hi]

/-- In classes 2 to 6 a call with address field 0 decodes by its class and operand (R71). -/
theorem decode_otherClass {cls : Nat} (o : Operand) (h2 : 2 ≤ cls) (h7 : cls < 7) :
    decode ⟨commandWord cls 0, o⟩ = decodeOther cls o := by
  have hc := cls_commandWord (cls := cls) (a := 0) (by omega) (by decide) o
  have ha := addr_commandWord (cls := cls) (a := 0) (by omega) (by decide) o
  rw [decode, hc, ha, if_neg (by omega), if_neg (by omega), if_neg (by omega), if_neg (fun h => h rfl)]

/-- Settles O1: each row of the memory windows by the law of its window, the catch-all rows by the law of the unmapped
addresses, and the rows of one exact word by running the decoder. -/
theorem decodeOfEncode : Obligations.DecodeOfEncode := by
  unfold Obligations.DecodeOfEncode
  intro i hwf
  cases i with
  | readVram o => exact decode_encode_of_read rfl (by omega) (decode_vram o 0).1
  | readOamLo o => exact decode_encode_of_read rfl (by omega) (decode_oamLo o 0).1
  | readOamHi o => exact decode_encode_of_read rfl (by omega) (decode_oamHi o 0).1
  | writeVram o v => exact decode_encode_of_write rfl (by omega) (decode_vram o v).2
  | writeOamLo o v => exact decode_encode_of_write rfl (by omega) (decode_oamLo o v).2
  | writeOamHi o v => exact decode_encode_of_write rfl (by omega) (decode_oamHi o v).2
  | readLcdc | readStat | readScy | readScx | readLy | readLyc | readDma | readBgp | readObp0 | readObp1 | readWy
  | readWx => exact decode_encode_of_read rfl (by decide) rfl
  | writeLcdc v | writeStat v | writeScy v | writeScx v | writeLy v | writeLyc v | writeDma v | writeBgp v
  | writeObp0 v | writeObp1 v | writeWy v | writeWx v => exact decode_encode_of_write rfl (by decide) rfl
  | readOther a =>
    have unmapped : mapped a = false := by simpa [Instr.wellFormed] using hwf
    exact decode_encode_of_read rfl a.isLt (by simpa using (decode_unmapped unmapped 0).1)
  | writeOther a v =>
    have unmapped : mapped a = false := by simpa [Instr.wellFormed] using hwf
    exact decode_encode_of_write rfl a.isLt (by simpa using (decode_unmapped unmapped v).2)
  | step n | preboot | powerOn | registerObserver o | getFramebuffer =>
    exact decode_otherClass _ (by decide) (by decide)

/-- Only the READ call of an address decodes in class READ. -/
theorem decodeReadCall_ok {c : HostCall} {i : Instr} (hc : c.cls = 0) (h : decodeReadCall c = .ok i) :
    c = .read c.addr.toNat ∧ i = decodeRead c.addr := by
  have hw := c.word_eq
  rw [hc] at hw
  obtain ⟨w, o⟩ := c
  cases o <;> cases h
  exact ⟨congrArg (HostCall.mk · _) hw, rfl⟩

/-- Only the WRITE call of a byte decodes in class WRITE. -/
theorem decodeWriteCall_ok {c : HostCall} {i : Instr} (hc : c.cls = 1) (h : decodeWriteCall c = .ok i) :
    ∃ v : Byte, c = .write c.addr.toNat v ∧ i = decodeWrite c.addr v := by
  have hw := c.word_eq
  rw [hc] at hw
  obtain ⟨w, o⟩ := c
  cases o with
  | none | cycles | observer => cases h
  | value v =>
    simp only [decodeWriteCall] at h
    split at h
    · rename_i hv
      cases h
      refine ⟨BitVec.ofNat 8 v, ?_, rfl⟩
      rw [HostCall.write, BitVec.toNat_ofNat, Nat.mod_eq_of_lt hv]
      exact congrArg (HostCall.mk · _) hw
    · cases h

/-- Only the five commands of classes 2 to 6 decode there, each from the word of its class (R71). -/
theorem decodeOther_ok {cls : Nat} {o : Operand} {i : Instr} (h : decodeOther cls o = .ok i) :
    ⟨commandWord cls 0, o⟩ = encode i ∧ i.wellFormed = true := by
  unfold decodeOther at h
  split at h <;> cases h <;> exact ⟨rfl, rfl⟩

/-- What a call that decodes can be: the READ of an address, the WRITE of a byte, or the encoding of a command of
classes 2 to 6. -/
theorem decode_ok_cases {c : HostCall} {i : Instr} (h : decode c = .ok i) :
    (c = .read c.addr.toNat ∧ i = decodeRead c.addr) ∨
    (∃ v : Byte, c = .write c.addr.toNat v ∧ i = decodeWrite c.addr v) ∨
    (c = encode i ∧ i.wellFormed = true) := by
  unfold decode at h
  split at h
  · exact .inl (decodeReadCall_ok ‹_› h)
  split at h
  · exact .inr (.inl (decodeWriteCall_ok ‹_› h))
  split at h
  · cases h
  split at h
  · cases h
  · rename_i haddr
    have hw : c.word = commandWord c.cls 0 := by
      have := c.word_eq
      rwa [not_not.mp haddr] at this
    obtain ⟨he, hwf⟩ := decodeOther_ok h
    refine .inr (.inr ⟨?_, hwf⟩)
    rw [← he, ← hw]

/-- Settles O2: in each of the three shapes of a call that decodes, the encoder writes the call back. -/
theorem encodeOfDecode : Obligations.EncodeOfDecode := by
  unfold Obligations.EncodeOfDecode
  intro c i h
  obtain ⟨hc, rfl⟩ | ⟨v, hc, rfl⟩ | ⟨hc, hwf⟩ := decode_ok_cases h
  · obtain ⟨he, hwf⟩ := encode_decodeRead c.addr
    exact ⟨he.trans hc.symm, hwf⟩
  · obtain ⟨he, hwf⟩ := encode_decodeWrite c.addr v
    exact ⟨he.trans hc.symm, hwf⟩
  · exact ⟨hc.symm, hwf⟩

/-- The word that encodes an instruction matches the instruction's row, for every row (R72). -/
theorem encode_matches_row (i : Instr) : Laws.RowMatch.Statement i := by
  cases i with
  | readVram o => exact Laws.RowMatch.readVram o
  | writeVram o v => exact Laws.RowMatch.writeVram o v
  | readOamLo o => exact Laws.RowMatch.readOamLo o
  | readOamHi o => exact Laws.RowMatch.readOamHi o
  | writeOamLo o v => exact Laws.RowMatch.writeOamLo o v
  | writeOamHi o v => exact Laws.RowMatch.writeOamHi o v
  | readLcdc => exact Laws.RowMatch.readLcdc
  | writeLcdc v => exact Laws.RowMatch.writeLcdc v
  | readStat => exact Laws.RowMatch.readStat
  | writeStat v => exact Laws.RowMatch.writeStat v
  | readScy => exact Laws.RowMatch.readScy
  | writeScy v => exact Laws.RowMatch.writeScy v
  | readScx => exact Laws.RowMatch.readScx
  | writeScx v => exact Laws.RowMatch.writeScx v
  | readLy => exact Laws.RowMatch.readLy
  | writeLy v => exact Laws.RowMatch.writeLy v
  | readLyc => exact Laws.RowMatch.readLyc
  | writeLyc v => exact Laws.RowMatch.writeLyc v
  | readDma => exact Laws.RowMatch.readDma
  | writeDma v => exact Laws.RowMatch.writeDma v
  | readBgp => exact Laws.RowMatch.readBgp
  | writeBgp v => exact Laws.RowMatch.writeBgp v
  | readObp0 => exact Laws.RowMatch.readObp0
  | writeObp0 v => exact Laws.RowMatch.writeObp0 v
  | readObp1 => exact Laws.RowMatch.readObp1
  | writeObp1 v => exact Laws.RowMatch.writeObp1 v
  | readWy => exact Laws.RowMatch.readWy
  | writeWy v => exact Laws.RowMatch.writeWy v
  | readWx => exact Laws.RowMatch.readWx
  | writeWx v => exact Laws.RowMatch.writeWx v
  | readOther a => exact Laws.RowMatch.readOther a
  | writeOther a v => exact Laws.RowMatch.writeOther a v
  | step n => exact Laws.RowMatch.step n
  | preboot => exact Laws.RowMatch.preboot
  | powerOn => exact Laws.RowMatch.powerOn
  | registerObserver o => exact Laws.RowMatch.registerObserver o
  | getFramebuffer => exact Laws.RowMatch.getFramebuffer

/-- Settles O3: the word of a call that decodes is the word its instruction encodes to, and that one matches. -/
theorem decodedWordMatchesTableRow : Obligations.DecodedWordMatchesTableRow := by
  unfold Obligations.DecodedWordMatchesTableRow
  intro c i h
  obtain ⟨rfl, -⟩ := encodeOfDecode c i h
  exact encode_matches_row i

/-- Settles O4: the two calls are the READ and the WRITE of the address, and those decode by the address. -/
theorem everyReadAndWriteAddressDecodes : Obligations.EveryReadAndWriteAddressDecodes := by
  unfold Obligations.EveryReadAndWriteAddressDecodes
  intro a v
  have hread : HostCall.read a.toNat = ⟨BitVec.ofNat 20 a.toNat, .none⟩ := by simp [HostCall.read, commandWord]
  have hwrite : HostCall.write a.toNat v = ⟨BitVec.ofNat 20 (0x10000 + a.toNat), .value v.toNat⟩ := by
    simp [HostCall.write, commandWord]
  exact ⟨⟨_, hread ▸ decode_read a.isLt⟩, ⟨_, hwrite ▸ decode_write a.isLt v⟩⟩

/-- A reserved class is refused (R80). -/
theorem decode_reservedClass {c : HostCall} (h : 7 ≤ c.cls) : decode c = .error .reservedClass := by
  rw [decode, if_neg (by omega), if_neg (by omega), if_pos h]

/-- A nonzero address field outside READ and WRITE is refused (R80). -/
theorem decode_addrNotZero {c : HostCall} (h2 : 2 ≤ c.cls) (h7 : ¬ 7 ≤ c.cls) (ha : c.addr ≠ 0) :
    decode c = .error .addrNotZero := by
  rw [decode, if_neg (by omega), if_neg (by omega), if_neg h7, if_pos ha]

/-- A WRITE value above 255 is refused (R73). -/
theorem decode_valueTooWide {c : HostCall} {v : Nat} (hc : c.cls = 1) (ho : c.operand = .value v) (hv : 255 < v) :
    decode c = .error .valueTooWide := by
  rw [decode, if_neg (by omega), if_pos hc, decodeWriteCall, ho]
  exact if_neg (by omega)

/-- Settles O6: the decoder run on eight words. -/
theorem sampleWordsDecode : Obligations.SampleWordsDecode := by
  unfold Obligations.SampleWordsDecode
  decide

end Sys2Proof

namespace Sys2Proof.Machine

/-- A call that decodes to no instruction is refused with the decoder's reason. -/
theorem step_of_decode_error {s : State} {c : HostCall} {rest : List HostCall} {e : DecodeError}
    (hs : s.calls = c :: rest) (h : decode c = .error e) : step s = .refused (.noSuchCommand e) := by
  rw [step, hs]
  simp only [h]

/-- Settles O5: one law of the decoder for each of the three ways to spell no command. -/
theorem callsThatSpellNoCommandAreRefused : Obligations.CallsThatSpellNoCommandAreRefused := by
  unfold Obligations.CallsThatSpellNoCommandAreRefused
  intro s c rest hs h
  rw [← c.cls_eq, ← c.addr_toNat] at h
  have refuses : ∀ {e}, decode c = .error e → ∃ e, step s = .refused (.noSuchCommand e) :=
    fun he => ⟨_, step_of_decode_error hs he⟩
  by_cases h7 : 7 ≤ c.cls
  · exact refuses (decode_reservedClass h7)
  obtain h7' | ⟨h2, ha⟩ | ⟨h1, v, ho, hv⟩ := h
  · exact absurd h7' h7
  · exact refuses (decode_addrNotZero h2 h7 fun h0 => ha (by rw [h0]; rfl))
  · exact refuses (decode_valueTooWide h1 ho hv)

end Sys2Proof.Machine
end

section
/-! What an instruction can do, said once, and what follows for every step: who writes what (R20 to R38), what a STEP
leaves unchanged, which commands log (R164, R241), and the invariant (R110). -/

namespace Sys2Proof.Machine

/-- What instruction `i` may make of state `s`. Register writes, memory writes and the rest each change one part of the
state; what a STEP changes is said by the laws of `execStep`. -/
inductive Effect (s : State) : Instr → State → Prop
  | returns (i : Instr) (r : Result) : Effect s i (s.ret r)
  | storesRegs (i : Instr) (r : RegBank) (ly : r.ly = s.regs.ly ∨ r.ly = 0 ∨ r.ly = s.cfg.prebootLy) :
      Effect s i (s.setRegs r)
  | writesVram (off : BitVec 13) (v : Byte) : Effect s (.writeVram off v) (s.writeVram off.toNat v)
  | writesOamLo (off : BitVec 7) (v : Byte) : Effect s (.writeOamLo off v) (s.writeOam off.toNat v)
  | writesOamHi (off : BitVec 5) (v : Byte) : Effect s (.writeOamHi off v) (s.writeOam (oamHiOffset off) v)
  | copies (v : Byte) : Effect s (.writeDma v) (s.dmaCopy v)
  | readsDma : Effect s .readDma (s.readUnrecognized 0xFF46)
  | readsOther (a : Address) : Effect s (.readOther a) (s.readUnrecognized a)
  | writesOther (a : Address) (v : Byte) : Effect s (.writeOther a v) (s.writeUnrecognized a)
  | observes (o : Option ObserverRef) : Effect s (.registerObserver o) (s.setObserver o)
  | creates : Effect s .powerOn s.create
  | advances (n : Nat) {t : State} (h : execStep n s = .next t) : Effect s (.step n) t

/-- Every instruction completes (R240), with one of the effects. -/
theorem exec_effect (i : Instr) (s : State) : ∃ t, exec i s = .next t ∧ Effect s i t := by
  cases i with
  | readVram | readOamLo | readOamHi | readLcdc | readStat | readScy | readScx | readLy | readLyc | readBgp | readObp0
  | readObp1 | readWy | readWx | getFramebuffer => exact ⟨_, rfl, .returns _ _⟩
  | writeLcdc | writeStat | writeScy | writeScx | writeLyc | writeBgp | writeObp0 | writeObp1 | writeWy
  | writeWx => exact ⟨_, rfl, .storesRegs _ _ (.inl rfl)⟩
  | writeLy => exact ⟨_, rfl, .storesRegs _ _ (.inr (.inl rfl))⟩
  | preboot => exact ⟨_, rfl, .storesRegs _ _ (.inr (.inr rfl))⟩
  | writeVram off v => exact ⟨_, rfl, .writesVram off v⟩
  | writeOamLo off v => exact ⟨_, rfl, .writesOamLo off v⟩
  | writeOamHi off v => exact ⟨_, rfl, .writesOamHi off v⟩
  | writeDma v => exact ⟨_, rfl, .copies v⟩
  | readDma => exact ⟨_, rfl, .readsDma⟩
  | readOther a => exact ⟨_, rfl, .readsOther a⟩
  | writeOther a v => exact ⟨_, rfl, .writesOther a v⟩
  | registerObserver o => exact ⟨_, rfl, .observes o⟩
  | powerOn => exact ⟨_, rfl, .creates⟩
  | step n => exact ⟨_, rfl, .advances n rfl⟩

/-- The state after an instruction is one of its effects. -/
theorem Effect.of_exec {i : Instr} {s t : State} (h : exec i s = .next t) : Effect s i t := by
  obtain ⟨t', ht', heffect⟩ := exec_effect i s
  rw [h] at ht'
  cases ht'
  exact heffect

/-- A step that completes either had no call to make or had the effect of the instruction its oldest call decodes to. -/
theorem step_cases {s t : State} (h : step s = .next t) :
    t = s ∨ ∃ rest i, Effect (s.beginCall rest) i t := by
  unfold step at h
  split at h
  · cases h
    exact .inl rfl
  · split at h
    · cases h
    · exact .inr ⟨_, _, .of_exec h⟩

/-- A STEP changes the mode, the clock, the coincidence flag, LY, the framebuffer and the outputs, and nothing else. -/
theorem execStep_frame {s t : State} {n : Nat} (h : execStep n s = .next t) :
    t = { s with
      mode := t.mode, clk := t.clk, coinc := t.coinc, regs := { s.regs with ly := t.regs.ly }
      fb := t.fb, outputs := t.outputs } := by
  refine execStep_keeps s (P := fun u => u = { s with
    mode := u.mode, clk := u.clk, coinc := u.coinc, regs := { s.regs with ly := u.regs.ly }
    fb := u.fb, outputs := u.outputs }) rfl rfl (fun u hu => ?_) (fun u hu => ?_) h
  · rw [u.leaveMode_frame, hu]
  · rw [State.compared, hu]

/-! ### Who writes what -/

/-- Settles O10: each instruction's effect is a state it completes in. -/
theorem everyCommandCompletes : Obligations.EveryCommandCompletes := by
  unfold Obligations.EveryCommandCompletes
  intro i s
  obtain ⟨t, ht, -⟩ := exec_effect i s
  exact ⟨t, ht⟩

/-- Settles O43: of the effects only STEP's and creation's touch the sequencer. -/
theorem onlyStepMovesTheSequencer : Obligations.OnlyStepMovesTheSequencer := by
  unfold Obligations.OnlyStepMovesTheSequencer
  intro i s t h hstep hpower
  cases Effect.of_exec h with
  | advances n => exact absurd rfl (hstep n)
  | creates => exact absurd rfl hpower
  | copies v =>
    rw [s.dmaCopy_frame v]
    exact ⟨rfl, rfl, rfl⟩
  | writesVram | writesOamLo | writesOamHi => simp
  | returns | storesRegs | readsDma | readsOther | writesOther | observes => exact ⟨rfl, rfl, rfl⟩

/-- Settles O44: each effect names the one storage it writes, and the instruction it belongs to. -/
theorem eachStorageHasItsWriters : Obligations.EachStorageHasItsWriters := by
  unfold Obligations.EachStorageHasItsWriters
  intro i s t h hpower
  cases Effect.of_exec h with
  | creates => exact absurd rfl hpower
  | advances n hstep =>
    rw [execStep_frame hstep]
    exact ⟨fun hn => absurd rfl (hn n), fun _ => rfl, fun _ _ _ => rfl, fun _ => rfl, rfl, rfl, rfl⟩
  | copies v =>
    rw [s.dmaCopy_frame v]
    exact ⟨fun _ => rfl, fun _ => rfl, fun _ _ hdma => absurd rfl (hdma v), fun _ => rfl, rfl, rfl, rfl⟩
  | writesVram off v => simp
  | writesOamLo off v => simp
  | writesOamHi off v => simp
  | observes o => simp
  | returns | storesRegs | readsDma | readsOther | writesOther =>
    exact ⟨fun _ => rfl, fun _ => rfl, fun _ _ _ => rfl, fun _ => rfl, rfl, rfl, rfl⟩

/-- Settles O45: the frame of a STEP, field by field. -/
theorem stepWritesNoRegisterButLy : Obligations.StepWritesNoRegisterButLy := by
  unfold Obligations.StepWritesNoRegisterButLy
  intro s t n h
  rw [execStep_frame h]
  exact ⟨rfl, rfl, rfl, rfl, rfl, rfl, rfl, rfl, rfl⟩

/-- No effect touches the configuration or the external memory. -/
theorem Effect.keeps_config {s t : State} {i : Instr} (h : Effect s i t) : t.cfg = s.cfg ∧ t.extMem = s.extMem := by
  cases h with
  | advances n hstep =>
    rw [execStep_frame hstep]
    exact ⟨rfl, rfl⟩
  | copies v =>
    rw [s.dmaCopy_frame v]
    exact ⟨rfl, rfl⟩
  | writesVram | writesOamLo | writesOamHi => simp
  | returns | storesRegs | readsDma | readsOther | writesOther | observes | creates => exact ⟨rfl, rfl⟩

/-- Settles O46: a step is idle or has an effect, and no effect touches either field. -/
theorem configurationIsConstant : Obligations.ConfigurationIsConstant := by
  unfold Obligations.ConfigurationIsConstant
  intro s t h
  obtain rfl | ⟨rest, i, heffect⟩ := step_cases h
  · exact ⟨rfl, rfl⟩
  · exact heffect.keeps_config

/-! ### The diagnostic log -/

/-- The outputs of a STEP hold no LOG event that was not there before. -/
theorem execStep_log {s t : State} {n : Nat} {k : LogKind} {a : Address} (h : execStep n s = .next t)
    (hs : Output.event (.log k a) ∉ s.outputs) : Output.event (.log k a) ∉ t.outputs := by
  refine execStep_keeps s (P := fun u => Output.event (.log k a) ∉ u.outputs) hs hs
    (fun u hu => ?_) (fun u hu => ?_) h
  · have hirq : ∀ b ks, Output.event (.log k a) ∉ if b = true then irqs u.cfg ks else [] := fun b ks => by
      cases b
      · simp
      · exact log_not_mem_irqs _ _ _ _
    rcases u.leaveMode_cases with ⟨-, e⟩ | ⟨-, e⟩ | ⟨-, -, e⟩ | ⟨-, -, e⟩ | ⟨-, -, e⟩ | ⟨-, -, e⟩ <;>
      simp [e, hu, hirq, log_not_mem_irqs]
  · simp only [State.compared]
    split <;> simp [hu]

/-- A DMA copy puts out external reads alone. -/
theorem State.dmaCopy_log {s : State} {k : LogKind} {a : Address} (hs : Output.event (.log k a) ∉ s.outputs)
    (v : Byte) :
    Output.event (.log k a) ∉ (s.dmaCopy v).outputs := by
  unfold State.dmaCopy
  split
  · obtain ⟨m, he, -⟩ := dma_loop s (v.toNat * 256) Config.oamSize
    simp [he, hs]
  · exact hs

/-- Settles O17: read off the effects from left to right; from right to left the three instructions log. -/
theorem onlyUnservedAccessesAreLogged : Obligations.OnlyUnservedAccessesAreLogged := by
  unfold Obligations.OnlyUnservedAccessesAreLogged
  intro i s t k a h hs
  have hnot : Output.event (.log k a) ∉ s.outputs := by simp [hs]
  constructor
  · intro hlog
    cases Effect.of_exec h with
    | advances n hstep => exact absurd hlog (execStep_log hstep hnot)
    | copies v => exact absurd hlog (State.dmaCopy_log hnot v)
    | writesVram | writesOamLo | writesOamHi => exact absurd hlog (by simpa using hnot)
    | returns | storesRegs | observes | creates => exact absurd hlog hnot
    | readsDma | readsOther | writesOther =>
      simpa [State.readUnrecognized, State.writeUnrecognized, hs, eq_comm, and_comm] using hlog
  · rintro (⟨rfl, rfl⟩ | ⟨rfl, rfl, rfl⟩ | ⟨v, rfl, rfl⟩) <;> cases h <;>
      simp [State.readUnrecognized, State.writeUnrecognized]

/-! ### The invariant -/

/-- The invariant, on the parts of the state it reads, each given by itself. -/
theorem State.Inv.of_parts {s t : State} (h : s.Inv) (hcfg : t.cfg = s.cfg) (hv : t.vram = s.vram)
    (ho : t.oam = s.oam) (hd : t.memDraws = s.memDraws) (hl : t.lineOk) : t.Inv := by
  obtain ⟨hc, ⟨hm, hdraws⟩, -⟩ := h
  refine ⟨?_, ⟨?_, ?_⟩, hl⟩
  · rw [State.configOk, hcfg]
    exact hc
  · rw [hv, ho]
    exact hm
  · rw [hd]
    exact hdraws

/-- The line that follows a line other than 255 has the next number. -/
theorem ly_succ_toNat {ly : Byte} (h : ly.toNat < 255) : (ly + 1).toNat = ly.toNat + 1 := by
  bv_omega

/-- A visible line is in range in every mode. -/
theorem State.lineOk_of_visible {s : State} (h : s.regs.ly.toNat ≤ 143) : s.lineOk :=
  ⟨by omega, fun _ => h⟩

/-- In VBlank every line of the frame is in range. -/
theorem State.lineOk_of_vblank {s : State} (hm : s.mode = .vblank) (h : s.regs.ly.toNat ≤ 153) : s.lineOk :=
  ⟨h, fun hv => absurd hm hv⟩

/-- Every transition keeps the line in range and visible in every visible mode (R110). -/
theorem State.leaveMode_lineOk {s : State} (h : s.lineOk) : s.leaveMode.lineOk := by
  obtain ⟨hle, hvis⟩ := h
  rcases s.leaveMode_cases with ⟨c, e⟩ | ⟨c, e⟩ | ⟨c, d, e⟩ | ⟨c, d, e⟩ | ⟨c, d, e⟩ | ⟨c, d, e⟩ <;> rw [e]
  · exact State.lineOk_of_visible (hvis (by simp [c]))
  · exact State.lineOk_of_visible (hvis (by simp [c]))
  · have hlt : s.regs.ly.toNat ≤ 143 := hvis (by simp [c])
    have hne : s.regs.ly.toNat ≠ 143 := fun q => d (BitVec.eq_of_toNat_eq q)
    refine State.lineOk_of_visible ?_
    simp only [ly_succ_toNat (ly := s.regs.ly) (by omega)]
    omega
  · exact State.lineOk_of_vblank rfl (by decide : (144 : Byte).toNat ≤ 153)
  · have hne : s.regs.ly.toNat ≠ 153 := fun q => d (BitVec.eq_of_toNat_eq q)
    refine State.lineOk_of_vblank rfl ?_
    simp only [ly_succ_toNat (ly := s.regs.ly) (by omega)]
    omega
  · exact State.lineOk_of_visible (by decide : (0 : Byte).toNat ≤ 143)

/-- STEP keeps the invariant. -/
theorem execStep_inv {s t : State} {n : Nat} (hinv : s.Inv) (h : execStep n s = .next t) : t.Inv := by
  refine execStep_keeps s (P := State.Inv) ?_ hinv (fun u hu => ?_) (fun u hu => hu) h
  · exact hinv.of_parts rfl rfl rfl rfl (State.lineOk_of_vblank rfl (by decide : (153 : Byte).toNat ≤ 153))
  · obtain ⟨-, -, hline⟩ := id hu
    have hframe := u.leaveMode_frame
    exact hu.of_parts u.leaveMode_cfg (by rw [hframe]) (by rw [hframe]) (by rw [hframe]) (State.leaveMode_lineOk hline)

/-- Replacing OAM by a memory in canonical form keeps the invariant. -/
theorem State.Inv.setOam {s : State} (h : s.Inv) {m : Memory} (hm : Memory.wf m) (hw : Memory.within Config.oamSize m) :
    (s.setOam m).Inv := by
  obtain ⟨hc, ⟨⟨hv, hvw, -, -⟩, hdraws⟩, hl⟩ := h
  exact ⟨hc, ⟨⟨hv, hvw, hm, hw⟩, hdraws⟩, hl⟩

/-- Replacing VRAM by a memory in canonical form keeps the invariant. -/
theorem State.Inv.setVram {s : State} (h : s.Inv) {m : Memory} (hm : Memory.wf m)
    (hw : Memory.within Config.vramSize m) : (s.setVram m).Inv := by
  obtain ⟨hc, ⟨⟨-, -, ho, how⟩, hdraws⟩, hl⟩ := h
  exact ⟨hc, ⟨⟨hm, hw, ho, how⟩, hdraws⟩, hl⟩

/-- An arbitrated write inside OAM keeps the invariant. -/
theorem State.Inv.writeOam {s : State} (h : s.Inv) {o : Nat} (ho : o < Config.oamSize) (v : Byte) :
    (s.writeOam o v).Inv := by
  obtain ⟨-, ⟨⟨-, -, hwf, hwithin⟩, -⟩, -⟩ := id h
  unfold State.writeOam
  split
  · exact h
  · exact h.setOam (Memory.write_wf hwf _ _) (Memory.write_within hwithin ho _)

/-- An arbitrated write inside VRAM keeps the invariant. -/
theorem State.Inv.writeVram {s : State} (h : s.Inv) {o : Nat} (ho : o < Config.vramSize) (v : Byte) :
    (s.writeVram o v).Inv := by
  obtain ⟨-, ⟨⟨hwf, hwithin, -, -⟩, -⟩, -⟩ := id h
  unfold State.writeVram
  split
  · exact h
  · exact h.setVram (Memory.write_wf hwf _ _) (Memory.write_within hwithin ho _)

/-- A DMA copy keeps the invariant: it stores at offsets 0 to 159. -/
theorem State.Inv.dmaCopy {s : State} (h : s.Inv) (v : Byte) : (s.dmaCopy v).Inv := by
  obtain ⟨-, ⟨⟨-, -, hwf, hwithin⟩, -⟩, -⟩ := id h
  unfold State.dmaCopy
  split
  · obtain ⟨m, he, hm, -, -, hw⟩ := dma_loop s (v.toNat * 256) Config.oamSize
    rw [he]
    exact h.setOam (hm hwf) (hw _ (le_refl _) hwithin)
  · exact h

/-- A bank whose LY is the line, 0 or PREBOOT_LY keeps the invariant: each is a visible line in a visible mode. -/
theorem State.Inv.setRegs {s : State} (h : s.Inv) {r : RegBank}
    (hly : r.ly = s.regs.ly ∨ r.ly = 0 ∨ r.ly = s.cfg.prebootLy) : (s.setRegs r).Inv := by
  obtain ⟨⟨-, hpre⟩, -, hle, hvis⟩ := id h
  refine h.of_parts rfl rfl rfl rfl ?_
  show r.ly.toNat ≤ 153 ∧ (s.mode ≠ .vblank → r.ly.toNat ≤ 143)
  obtain hly | hly | hly := hly <;> rw [hly]
  · exact ⟨hle, hvis⟩
  · exact ⟨by decide, fun _ => by decide⟩
  · exact ⟨by omega, fun _ => hpre⟩

/-- Creation gives the invariant again: LY is 0, and the memories are an image the invariant speaks of. -/
theorem State.Inv.create {s : State} (h : s.Inv) : s.create.Inv := by
  obtain ⟨hc, ⟨-, hdraws⟩, -⟩ := h
  exact ⟨hc, ⟨State.nextImage_wf hdraws, fun m hm => hdraws m (List.mem_of_mem_tail hm)⟩,
    State.lineOk_of_visible (by decide : (0 : Byte).toNat ≤ 143)⟩

/-- Every effect keeps the invariant. -/
theorem Effect.keeps_inv {s t : State} {i : Instr} (h : Effect s i t) (hinv : s.Inv) : t.Inv := by
  cases h with
  | advances n hstep => exact execStep_inv hinv hstep
  | storesRegs i r hly => exact hinv.setRegs hly
  | writesVram off v => exact hinv.writeVram off.isLt v
  | writesOamLo off v => exact hinv.writeOam (Nat.lt_of_lt_of_le off.isLt (by decide)) v
  | writesOamHi off v =>
    have := off.isLt
    exact hinv.writeOam (show 128 + off.toNat < 160 by omega) v
  | copies v => exact hinv.dmaCopy v
  | creates => exact hinv.create
  | returns | readsDma | readsOther | writesOther | observes => exact hinv

/-- Settles O47: a step is idle or has an effect on the call begun, and every effect keeps the invariant. -/
theorem invariantKeptByEveryStep : Obligations.InvariantKeptByEveryStep := by
  unfold Obligations.InvariantKeptByEveryStep
  intro s t hinv h
  obtain rfl | ⟨rest, i, heffect⟩ := step_cases h
  · exact hinv
  · exact heffect.keeps_inv hinv

/-- Settles O48: the default configuration, empty memories and line 0 meet it. -/
theorem invariantHoldsAtReset : Obligations.InvariantHoldsAtReset := by
  unfold Obligations.InvariantHoldsAtReset
  decide

end Sys2Proof.Machine
end

section
/-! The timing state machine (R100 to R116): the transition of each mode under the single policy, the loop, the bound on
the mode clock, and the place in the frame. -/

namespace Sys2Proof.Machine

/-! ### One transition by its mode -/

theorem State.threshold_of_mode {s : State} {m : Mode} (h : s.mode = m) : s.threshold = modeThreshold s.cfg m :=
  congrArg (modeThreshold s.cfg) h

theorem State.leaveMode_of_oamSearch (s : State) (h : s.mode = .oamSearch) : s.leaveMode = s.leaveOamSearch := by
  rw [State.leaveMode, h]

theorem State.leaveMode_of_vramTransfer (s : State) (h : s.mode = .vramTransfer) :
    s.leaveMode = s.leaveVramTransfer := by
  rw [State.leaveMode, h]

theorem State.leaveMode_of_hblank (s : State) (h : s.mode = .hblank) : s.leaveMode = s.leaveHBlank := by
  rw [State.leaveMode, h]

theorem State.leaveMode_of_vblank (s : State) (h : s.mode = .vblank) : s.leaveMode = s.leaveVBlankLine := by
  rw [State.leaveMode, h]

/-! ### STEP by policy and window -/

/-- The state with a STEP's cycles on the clock (R102). -/
abbrev State.counted (s : State) (n : Nat) : State := s.setClk (s.clk + n)

/-- At or past the threshold the single policy makes one transition and compares. -/
theorem exec_step_of_le {s : State} {n : Nat} (hon : s.regs.lcdc.getLsbD 7 = true) (hp : s.cfg.stepPolicy = .single)
    (h : s.threshold ≤ s.clk + n) :
    exec (.step n) s = .next (s.counted n).leaveMode.compared := by
  rw [exec_step, execStep_single s hon hp, if_pos h]
  rfl

/-- Inside the window a STEP of either policy counts and compares. -/
theorem exec_step_of_lt {s : State} {n : Nat} (hon : s.regs.lcdc.getLsbD 7 = true) (h : s.clk + n < s.threshold) :
    exec (.step n) s = .next (s.counted n).compared := by
  rw [exec_step, execStep_enabled s hon, State.handleMode_of_lt { s with clk := s.clk + n } h]
  rfl

/-- Settles O28: the law of an enabled STEP. -/
theorem enabledStepEndsWithTheComparison : Obligations.EnabledStepEndsWithTheComparison := by
  unfold Obligations.EnabledStepEndsWithTheComparison
  intro s n hon
  rw [exec_step]
  exact execStep_enabled s hon n

/-- Settles O29: neither policy does anything inside the window. -/
theorem stepInsideTheWindowOnlyCounts : Obligations.StepInsideTheWindowOnlyCounts := by
  unfold Obligations.StepInsideTheWindowOnlyCounts
  intro s n hon h
  exact exec_step_of_lt hon h

/-- Settles O30: on either side of T_OAM. -/
theorem oamSearchStep : Obligations.OamSearchStep := by
  unfold Obligations.OamSearchStep
  intro s n hon hp hm
  have ht : s.threshold = s.cfg.tOam := State.threshold_of_mode hm
  refine ⟨fun hle => ?_, fun hlt => exec_step_of_lt hon (ht ▸ hlt)⟩
  rw [exec_step_of_le hon hp (ht ▸ hle), (s.counted n).leaveMode_of_oamSearch hm,
    (s.counted n).leaveOamSearch_eq, ← ht]
  rfl

/-- Settles O31: what the end of VRAMTransfer does, with the frame both renderers leave. -/
theorem vramTransferStep : Obligations.VramTransferStep := by
  unfold Obligations.VramTransferStep
  intro s n hon hp hm hle
  have ht : s.threshold = s.cfg.tVram := State.threshold_of_mode hm
  rw [exec_step_of_le hon hp (ht ▸ hle), (s.counted n).leaveMode_of_vramTransfer hm,
    (s.counted n).leaveVramTransfer_eq, ← ht]
  rfl

/-- Settles O32: what the end of HBlank does where the next line is not 144. -/
theorem hBlankStepToTheNextLine : Obligations.HBlankStepToTheNextLine := by
  unfold Obligations.HBlankStepToTheNextLine
  intro s n hon hp hm hle hly
  have ht : s.threshold = s.cfg.tHBlank := State.threshold_of_mode hm
  rw [exec_step_of_le hon hp (ht ▸ hle), (s.counted n).leaveMode_of_hblank hm,
    (s.counted n).leaveHBlank_of_ne hly, ← ht]
  rfl

/-- Settles O33: what the end of HBlank does where the next line is 144. -/
theorem hBlankStepToVBlank : Obligations.HBlankStepToVBlank := by
  unfold Obligations.HBlankStepToVBlank
  intro s n hon hp hm hle hly
  have ht : s.threshold = s.cfg.tHBlank := State.threshold_of_mode hm
  rw [exec_step_of_le hon hp (ht ▸ hle), (s.counted n).leaveMode_of_hblank hm,
    (s.counted n).leaveHBlank_of_eq hly, ← ht]
  rfl

/-- Settles O34: what the end of a VBlank line does, before line 153 and on it. -/
theorem vBlankStep : Obligations.VBlankStep := by
  unfold Obligations.VBlankStep
  intro s n hon hp hm hle
  have ht : s.threshold = 456 := State.threshold_of_mode hm
  rw [exec_step_of_le hon hp (ht ▸ hle), (s.counted n).leaveMode_of_vblank hm]
  refine ⟨fun hly => ?_, fun hly => ?_⟩
  · rw [(s.counted n).leaveVBlankLine_of_ne hly, ← ht]
    rfl
  · rw [(s.counted n).leaveVBlankLine_of_eq hly, ← ht]
    rfl

/-- Settles O35: every transition takes its threshold off the clock, and the single policy makes at most one. -/
theorem oneThresholdPerSingleStep : Obligations.OneThresholdPerSingleStep := by
  unfold Obligations.OneThresholdPerSingleStep
  intro s n hon hp
  by_cases hle : s.threshold ≤ s.clk + n
  · refine ⟨_, exec_step_of_le hon hp hle, ?_⟩
    rw [if_pos hle]
    exact (s.counted n).leaveMode_clk
  · exact ⟨_, exec_step_of_lt hon (Nat.lt_of_not_le hle), (if_neg hle).symm⟩

/-! ### The loop policy and the clock's bound -/

/-- The mode handling of either policy is a number of transitions, each taken with the window over: under the single
policy one or none, under the loop policy as many as bring the clock inside (R111, R112). -/
theorem State.handleMode_eq_transitions (s : State) :
    ∃ k, s.handleMode = State.transitions k s ∧ (∀ j, j < k → ¬ (State.transitions j s).clockOk) ∧
      (s.cfg.stepPolicy = .single → k = if s.threshold ≤ s.clk then 1 else 0) ∧
      (s.cfg.stepPolicy = .loop → s.cfg.ok → (State.transitions k s).clockOk) := by
  cases hp : s.cfg.stepPolicy with
  | single =>
    rw [s.handleMode_single hp]
    by_cases hle : s.threshold ≤ s.clk
    · refine ⟨1, rfl, fun j hj => ?_, fun _ => (if_pos hle).symm, nofun⟩
      rw [Nat.lt_one_iff.mp hj]
      exact Nat.not_lt.mpr hle
    · exact ⟨0, s.modeCase_of_lt (Nat.lt_of_not_le hle), nofun, fun _ => (if_neg hle).symm, nofun⟩
  | loop =>
    obtain ⟨k, he, hk, hj⟩ := State.settle_eq s.clk s
    have hloop : s.handleMode = State.settle s.clk s := by simp [State.handleMode, hp]
    exact ⟨k, hloop.trans he, hj, nofun, fun _ hc => he ▸ hk hc (le_refl _)⟩

/-- Settles O36: the loop's transitions end with the clock inside its window, and not before. -/
theorem loopStepRunsUntilTheClockIsInside : Obligations.LoopStepRunsUntilTheClockIsInside := by
  unfold Obligations.LoopStepRunsUntilTheClockIsInside
  intro s n hc hon hp
  obtain ⟨k, he, hj, -, hin⟩ := State.handleMode_eq_transitions { s with clk := s.clk + n }
  refine ⟨k, ?_, hin hp hc, hj⟩
  rw [exec_step, execStep_enabled s hon, he]

/-- A length that no window is shorter than is within the threshold of any state of the configuration. -/
theorem State.shortStep_le_threshold {s t : State} {n : Nat} (h : s.shortStep n) (hc : t.cfg = s.cfg) :
    n ≤ t.threshold := by
  obtain ⟨ho, hv, hh, hb⟩ := h
  rw [State.threshold, hc]
  cases t.mode with
  | oamSearch => exact ho
  | vramTransfer => exact hv
  | hblank => exact hh
  | vblank => exact hb

/-- After a transition by a short STEP the clock is inside the next window: less than the STEP is left of it. -/
theorem State.leaveMode_clockOk {s : State} {n : Nat} (hk : s.clockOk) (hn : s.shortStep n)
    (hle : s.threshold ≤ s.clk + n) :
    (s.counted n).leaveMode.clockOk := by
  have hwin := State.shortStep_le_threshold hn (s.counted n).leaveMode_cfg
  have hclk : (s.counted n).leaveMode.clk = s.clk + n - s.threshold := (s.counted n).leaveMode_clk
  have hk : s.clk < s.threshold := hk
  rw [State.clockOk, hclk]
  omega

/-- Settles O37: a short STEP by its one transition or none, the loop by its end, and a disabled STEP by its values. -/
theorem modeClockBound : Obligations.ModeClockBound := by
  unfold Obligations.ModeClockBound
  intro s n hc
  refine ⟨fun hon hp hk hn => ?_, fun hon hp => ?_, fun hoff => ?_⟩
  · by_cases hle : s.threshold ≤ s.clk + n
    · exact ⟨_, exec_step_of_le hon hp hle, State.leaveMode_clockOk hk hn hle⟩
    · exact ⟨_, exec_step_of_lt hon (Nat.lt_of_not_le hle), Nat.lt_of_not_le hle⟩
  · obtain ⟨k, he, hk, -⟩ := loopStepRunsUntilTheClockIsInside s n hc hon hp
    exact ⟨_, he, hk⟩
  · exact ⟨_, disabledStepForcesVBlank s n hoff, rfl⟩

/-- Settles O38: adding the cycles moves the place by them, and a transition keeps the place modulo the frame
(`State.leaveMode_place`); on schedule the place is below 70224, so it is that remainder. -/
theorem stepAdvancesThePlaceInTheFrame : Obligations.StepAdvancesThePlaceInTheFrame := by
  unfold Obligations.StepAdvancesThePlaceInTheFrame
  intro s n hc hon hp hsched hn
  obtain ⟨hly, hmode, hk⟩ := hsched
  have hadd : (s.counted n).framePos = s.framePos + n := by
    simp [State.framePos, Nat.add_assoc]
  by_cases hle : s.threshold ≤ s.clk + n
  · obtain ⟨hly', hmode', hplace⟩ := (s.counted n).leaveMode_place hc hly hmode hle
    have hsched' : (s.counted n).leaveMode.onSchedule :=
      ⟨hly', hmode', State.leaveMode_clockOk hk hn hle⟩
    refine ⟨_, exec_step_of_le hon hp hle, hsched', ?_⟩
    rw [← hadd, ← hplace]
    refine (Nat.mod_eq_of_lt (State.framePos_lt _ ?_ hsched')).symm
    rwa [State.leaveMode_cfg]
  · have hsched' : (s.counted n).onSchedule := ⟨hly, hmode, Nat.lt_of_not_le hle⟩
    refine ⟨_, exec_step_of_lt hon (Nat.lt_of_not_le hle), hsched', ?_⟩
    rw [← hadd]
    exact (Nat.mod_eq_of_lt ((s.counted n).framePos_lt hc hsched')).symm

/-- Where one transition puts the clock inside the next window, the mode handling of either policy is that
transition. -/
theorem State.handleMode_eq_leaveMode {s : State} (hle : s.threshold ≤ s.clk)
    (h : s.cfg.stepPolicy = .single ∨ 0 < s.clk ∧ s.leaveMode.clockOk) : s.handleMode = s.leaveMode := by
  unfold State.handleMode
  split
  · exact s.modeCase_of_le hle
  · rename_i hp
    obtain ⟨hpos, hin⟩ := h.resolve_left (by simp [hp])
    obtain ⟨k, hk⟩ := Nat.exists_eq_succ_of_ne_zero hpos.ne'
    rw [hk, State.settle, if_pos hle, State.settle_of_lt _ hin]

/-- With the window of line 153 just over, a STEP starts the frame with its own cycles on the clock (R116). -/
theorem exec_step_endOfFrame {s : State} {n : Nat} (hon : s.regs.lcdc.getLsbD 7 = true) (hm : s.mode = .vblank)
    (hclk : s.clk = 456) (hly : s.regs.ly = 153) (hp : s.cfg.stepPolicy = .single ∨ n < s.cfg.tOam) :
    exec (.step n) s =
      .next (State.compared { s with clk := n, mode := .oamSearch, regs := { s.regs with ly := 0 } }) := by
  have ht : s.threshold = 456 := State.threshold_of_mode hm
  have hend : (s.counted n).leaveMode = { s with clk := n, mode := .oamSearch, regs := { s.regs with ly := 0 } } := by
    have hleft : (s.counted n).clk - (s.counted n).threshold = n := by
      show s.clk + n - s.threshold = n
      omega
    rw [(s.counted n).leaveMode_of_vblank hm, (s.counted n).leaveVBlankLine_of_eq hly, hleft]
    rfl
  have hhandle : (s.counted n).handleMode = (s.counted n).leaveMode := by
    refine State.handleMode_eq_leaveMode (show s.threshold ≤ s.clk + n by omega) (hp.imp id fun hn => ⟨?_, ?_⟩)
    · show 0 < s.clk + n
      omega
    · rw [hend]
      exact hn
  rw [exec_step, execStep_enabled s hon, ← hend, ← hhandle]
  rfl

/-- Settles O39: the disabled STEP leaves line 153 with its window just over, and the WRITE to LCDC keeps it so. -/
theorem reEnablingStartsTheFrame : Obligations.ReEnablingStartsTheFrame := by
  unfold Obligations.ReEnablingStartsTheFrame
  intro s m n v hoff hv hp
  exact ⟨_, _, _, disabledStepForcesVBlank s m hoff, rfl, exec_step_endOfFrame hv rfl rfl rfl hp, rfl, rfl, rfl,
    decide_eq_decide.mpr eq_comm⟩

end Sys2Proof.Machine
end

section
/-! Interrupt requests (R242 to R245): what a transition puts out, how often IRQ(VBlank) is requested, how many events a
STEP emits, and what the absence of a CPU changes. -/

namespace Sys2Proof.Machine

/-! ### The outputs of a transition -/

/-- What the end of the current mode's window puts out: the requests and events of R104 and R106. -/
def State.transitionOutputs (s : State) : List Output :=
  match s.mode with
  | .vramTransfer => if s.regs.statHi.getLsbD 0 then irqs s.cfg [.lcdStat] else []
  | .hblank =>
    if s.regs.ly = 143 then
      .event .frameComplete :: (s.observer.toList.map Output.observerCall ++ irqs s.cfg [.vblank] ++
        (if s.regs.statHi.getLsbD 1 then irqs s.cfg [.lcdStat] else []))
    else []
  | .oamSearch | .vblank => []

theorem State.leaveMode_outputs (s : State) : s.leaveMode.outputs = s.outputs ++ s.transitionOutputs := by
  unfold State.transitionOutputs
  rcases s.leaveMode_cases with ⟨c, e⟩ | ⟨c, e⟩ | ⟨c, d, e⟩ | ⟨c, d, e⟩ | ⟨c, -, e⟩ | ⟨c, -, e⟩ <;> rw [e, c]
  · simp
  · rw [if_neg d, List.append_nil]
  · simp [d]
  · simp
  · simp

/-! ### IRQ(VBlank) -/

/-- The requests of IRQ(VBlank) among those of a list of kinds: none without a CPU. -/
theorem count_vblank_irqs (c : Config) (ks : List IrqKind) :
    (irqs c ks).count (.event (.irq .vblank)) = if c.cpuPresent then ks.count .vblank else 0 := by
  have hinj : Function.Injective fun k => Output.event (.irq k) := fun a b h => by
    cases h
    rfl
  unfold irqs
  split
  · exact List.count_map_of_injective ks _ hinj _
  · rfl

/-- A transition requests IRQ(VBlank) once where it leaves the HBlank of line 143 with a CPU there, and else not. -/
theorem State.transitionOutputs_count (s : State) :
    s.transitionOutputs.count (.event (.irq .vblank)) =
      if s.cfg.cpuPresent = true ∧ s.mode = .hblank ∧ s.regs.ly = 143 then 1 else 0 := by
  have hlcd : ∀ b : Bool, (if b = true then irqs s.cfg [.lcdStat] else []).count (.event (.irq .vblank)) = 0 := by
    intro b
    cases b
    · rfl
    · simp [count_vblank_irqs]
  have hobs : (s.observer.toList.map Output.observerCall).count (.event (.irq .vblank)) = 0 :=
    List.count_eq_zero.mpr (by simp)
  unfold State.transitionOutputs
  cases hm : s.mode with
  | oamSearch | vblank => simp
  | vramTransfer => simp [hlcd]
  | hblank =>
    by_cases hly : s.regs.ly = 143
    · simp [hly, hobs, hlcd, count_vblank_irqs, List.count_append]
    · simp only [hly, and_false, if_false, List.count_nil]

/-- The comparison requests IRQ(LCDSTAT) alone. -/
theorem State.compared_vblankCount (s : State) :
    s.compared.outputCount (.event (.irq .vblank)) = s.outputCount (.event (.irq .vblank)) := by
  unfold State.outputCount State.compared
  split <;> simp [List.count_append]

/-- A number of transitions, each with its window over, requests IRQ(VBlank) as often as one of them leaves the HBlank
of line 143. -/
theorem State.transitions_vblankCount (s : State) (k : Nat)
    (h : ∀ j, j < k → ¬ (State.transitions j s).clockOk) :
    (State.transitions k s).outputCount (.event (.irq .vblank)) = s.outputCount (.event (.irq .vblank)) +
      if s.cfg.cpuPresent then
        (List.range k).countP fun j => (State.transitions j s).mode = .hblank ∧ (State.transitions j s).regs.ly = 143
      else 0 := by
  induction k with
  | zero => simp [State.transitions]
  | succ k ih =>
    have hover := Nat.not_lt.mp (h k (Nat.lt_succ_self k))
    have hcfg := State.transitions_cfg k s
    have ih := ih fun j hj => h j (Nat.lt_succ_of_lt hj)
    rw [State.transitions_succ, State.modeCase_of_le _ hover, State.outputCount, State.leaveMode_outputs,
      List.count_append, ← State.outputCount, ih, State.transitionOutputs_count, hcfg, List.range_succ,
      List.countP_append]
    by_cases hcpu : s.cfg.cpuPresent = true
    · simp [hcpu, List.countP_cons, Nat.add_assoc]
    · simp [hcpu]

/-- No effect but that of STEP requests IRQ(VBlank). -/
theorem Effect.keeps_vblankCount {s t : State} {i : Instr} (h : Effect s i t) (hi : ∀ n, i ≠ .step n) :
    t.outputCount (.event (.irq .vblank)) = s.outputCount (.event (.irq .vblank)) := by
  unfold State.outputCount
  cases h with
  | advances n => exact absurd rfl (hi n)
  | copies v =>
    unfold State.dmaCopy
    split
    · obtain ⟨m, he, -⟩ := dma_loop s (v.toNat * 256) Config.oamSize
      rw [he, List.count_append, List.count_eq_zero.mpr (by simp : Output.event (.irq .vblank) ∉ List.map _ _),
        Nat.add_zero]
    · rfl
  | writesVram | writesOamLo | writesOamHi => simp
  | readsDma | readsOther | writesOther =>
    simp [State.readUnrecognized, State.writeUnrecognized, List.count_append]
  | returns | storesRegs | observes | creates => rfl

/-- Settles O40: an enabled STEP is a number of transitions and the comparison; a disabled one puts out nothing. -/
theorem vBlankRequestOnlyOnEntry : Obligations.VBlankRequestOnlyOnEntry := by
  unfold Obligations.VBlankRequestOnlyOnEntry
  intro s
  refine ⟨fun n hon => ?_, fun i t h hoff => ?_⟩
  · obtain ⟨k, he, hj, hsingle, hloop⟩ := State.handleMode_eq_transitions { s with clk := s.clk + n }
    refine ⟨k, _, ?_, rfl, hj, hsingle, hloop, ?_⟩
    · rw [exec_step, execStep_enabled s hon, he]
    · rw [State.compared_vblankCount, State.transitions_vblankCount _ k hj]
      rfl
  · by_cases hi : ∃ n, i = .step n
    · obtain ⟨n, rfl⟩ := hi
      rw [disabledStepForcesVBlank s n (hoff ⟨n, rfl⟩)] at h
      cases h
      rfl
    · exact (Effect.of_exec h).keeps_vblankCount fun n hn => hi ⟨n, hn⟩

/-! ### The number of events -/

/-- Requests are events, at most as many as the kinds asked for. -/
theorem events_irqs_le (c : Config) (ks : List IrqKind) :
    ((irqs c ks).filterMap Output.toEvent).length ≤ ks.length := by
  refine (List.length_filterMap_le _ _).trans ?_
  unfold irqs
  split <;> simp

/-- A transition emits at most three events: FRAME_COMPLETE and two requests. -/
theorem State.transitionOutputs_events_le (s : State) :
    (s.transitionOutputs.filterMap Output.toEvent).length ≤ 3 := by
  have hlcd : ∀ b : Bool,
      ((if b = true then irqs s.cfg [.lcdStat] else []).filterMap Output.toEvent).length ≤ 1 := by
    intro b
    cases b
    · simp
    · exact events_irqs_le _ _
  have hvb := events_irqs_le s.cfg [.vblank]
  have hobs : (s.observer.toList.map Output.observerCall).filterMap Output.toEvent = [] := by
    cases s.observer <;> rfl
  unfold State.transitionOutputs
  cases s.mode with
  | oamSearch | vblank => simp
  | vramTransfer => exact (hlcd _).trans (by decide)
  | hblank =>
    by_cases hly : s.regs.ly = 143
    · have := hlcd (s.regs.statHi.getLsbD 1)
      simp only [hly, if_true, List.filterMap_cons, Output.toEvent_event, List.filterMap_append, hobs,
        List.length_cons, List.length_append, List.length_nil] at this hvb ⊢
      omega
    · simp only [if_neg hly, List.filterMap_nil, List.length_nil, Nat.zero_le]

/-- The comparison emits at most one event. -/
theorem State.compared_events_le (s : State) : s.compared.events.length ≤ s.events.length + 1 := by
  unfold State.events State.compared
  split <;> simp

/-- Settles O41: three events at most from the transition, one from the comparison. -/
theorem atMostFourEventsPerSingleStep : Obligations.AtMostFourEventsPerSingleStep := by
  unfold Obligations.AtMostFourEventsPerSingleStep
  intro s n hp hs
  have hnone : ∀ u : State, u.outputs = s.outputs → u.events.length = 0 := fun u hu => by
    simp [State.events, hu, hs]
  cases hb : s.regs.lcdc.getLsbD 7 with
  | false => exact ⟨_, disabledStepForcesVBlank s n hb, (hnone _ rfl).le.trans (by decide)⟩
  | true =>
    by_cases hle : s.threshold ≤ s.clk + n
    · refine ⟨_, exec_step_of_le hb hp hle, (State.compared_events_le _).trans (Nat.succ_le_succ ?_)⟩
      rw [State.events, State.leaveMode_outputs, List.filterMap_append, List.length_append, ← State.events,
        hnone (s.counted n) rfl, Nat.zero_add]
      exact State.transitionOutputs_events_le _
    · refine ⟨_, exec_step_of_lt hb (Nat.lt_of_not_le hle), (State.compared_events_le _).trans ?_⟩
      rw [hnone (s.counted n) rfl]
      decide

end Sys2Proof.Machine
end

section
/-! Two runs of STEP side by side: a relation that every part of a STEP keeps. Used for a machine without a CPU (R245)
and for the window's registers and bits (R187). -/

namespace Sys2Proof.Machine

/-- A relation between states that every part of a STEP keeps, and that makes both take the same branches. -/
structure Simulation (R : State → State → Prop) : Prop where
  display {u v : State} : R u v → u.regs.lcdc.getLsbD 7 = v.regs.lcdc.getLsbD 7
  policy {u v : State} : R u v → u.cfg.stepPolicy = v.cfg.stepPolicy
  clk {u v : State} : R u v → u.clk = v.clk
  threshold {u v : State} : R u v → u.threshold = v.threshold
  disabled {u v : State} : R u v → R u.stepDisabled v.stepDisabled
  counted {u v : State} (n : Nat) : R u v → R (u.counted n) (v.counted n)
  leaveMode {u v : State} : R u v → R u.leaveMode v.leaveMode
  compared {u v : State} : R u v → R u.compared v.compared

namespace Simulation

variable {R : State → State → Prop} (sim : Simulation R)
include sim

theorem settle (n : Nat) {u v : State} (h : R u v) : R (State.settle n u) (State.settle n v) := by
  induction n generalizing u v with
  | zero => exact h
  | succ n ih =>
    unfold State.settle
    rw [sim.threshold h, sim.clk h]
    split
    · exact ih (sim.leaveMode h)
    · exact h

theorem handleMode {u v : State} (h : R u v) : R u.handleMode v.handleMode := by
  unfold State.handleMode
  rw [sim.policy h]
  split
  · unfold State.modeCase
    rw [sim.threshold h, sim.clk h]
    split
    · exact sim.leaveMode h
    · exact h
  · rw [sim.clk h]
    exact sim.settle _ h

/-- Related states are related after a STEP. -/
theorem exec_step {u v t : State} {n : Nat} (h : R u v) (hu : exec (.step n) u = .next t) :
    ∃ t', exec (.step n) v = .next t' ∧ R t t' := by
  rw [Machine.exec_step] at hu ⊢
  cases hb : u.regs.lcdc.getLsbD 7 with
  | false =>
    rw [execStep_disabled u hb] at hu
    cases hu
    exact ⟨_, execStep_disabled v (sim.display h ▸ hb) n, sim.disabled h⟩
  | true =>
    rw [execStep_enabled u hb] at hu
    cases hu
    exact ⟨_, execStep_enabled v (sim.display h ▸ hb) n, sim.compared (sim.handleMode (sim.counted n h))⟩

end Simulation

/-- A transition does the same to the sequencer and to the framebuffer of two states that agree on mode, clock,
threshold and all that the renderers read; each state's own requests go to its own outputs. -/
theorem State.leaveMode_congr {u v : State} (hm : v.mode = u.mode) (hclk : v.clk = u.clk)
    (ht : v.threshold = u.threshold) (hview : v.rendering.SameView u.rendering) :
    v.leaveMode = { v with
      mode := u.leaveMode.mode, clk := u.leaveMode.clk, regs := { v.regs with ly := u.leaveMode.regs.ly }
      fb := u.leaveMode.fb, outputs := v.outputs ++ v.transitionOutputs } := by
  have hly : v.regs.ly = u.regs.ly := hview.ly
  have hfb : v.fb = u.fb := hview.fb
  rw [← v.leaveMode_outputs]
  rcases u.leaveMode_cases with ⟨c, e⟩ | ⟨c, e⟩ | ⟨c, d, e⟩ | ⟨c, d, e⟩ | ⟨c, d, e⟩ | ⟨c, d, e⟩ <;> rw [e]
  · rw [v.leaveMode_of_oamSearch (hm.trans c), v.leaveOamSearch_eq, hclk, ht, ← hly, ← hfb]
  · rw [v.leaveMode_of_vramTransfer (hm.trans c), v.leaveVramTransfer_eq, hclk, ht, ← hly, hview.renderedFb]
  · rw [v.leaveMode_of_hblank (hm.trans c), v.leaveHBlank_of_ne (hly ▸ d), hclk, ht, ← hly, ← hfb]
  · rw [v.leaveMode_of_hblank (hm.trans c), v.leaveHBlank_of_eq (hly ▸ d), hclk, ht, ← hfb]
  · rw [v.leaveMode_of_vblank (hm.trans c), v.leaveVBlankLine_of_ne (hly ▸ d), hclk, ht, ← hly, ← hfb, hm, c]
  · rw [v.leaveMode_of_vblank (hm.trans c), v.leaveVBlankLine_of_eq (hly ▸ d), hclk, ht, ← hfb]

/-! ### A machine without a CPU -/

/-- The same state without a CPU, and without the requests among its outputs (R245). -/
def State.withoutCpu (s : State) : State :=
  { s with cfg := { s.cfg with cpuPresent := false }, outputs := s.outputs.filter fun o => !o.isIrq }

@[simp] theorem State.withoutCpu_mode (s : State) : s.withoutCpu.mode = s.mode := rfl
@[simp] theorem State.withoutCpu_regs (s : State) : s.withoutCpu.regs = s.regs := rfl
@[simp] theorem State.withoutCpu_observer (s : State) : s.withoutCpu.observer = s.observer := rfl

@[simp] theorem irqs_withoutCpu (s : State) (ks : List IrqKind) : irqs s.withoutCpu.cfg ks = [] := rfl

@[simp] theorem Output.isIrq_irq (k : IrqKind) : (Output.event (.irq k)).isIrq = true := rfl
@[simp] theorem Output.isIrq_frameComplete : (Output.event .frameComplete).isIrq = false := rfl

/-- Where the requests are left out, none stays of one that depends on its enable bit. -/
theorem filter_irqs_of_enable (c : Config) (ks : List IrqKind) (enable : Bool) :
    (if enable = true then irqs c ks else []).filter (fun o => !o.isIrq) = [] := by
  cases enable
  · rfl
  · exact filter_irqs c ks

/-- A call of the observer is no request. -/
theorem filter_observerCalls (l : List ObserverRef) :
    (l.map Output.observerCall).filter (fun o => !o.isIrq) = l.map Output.observerCall := by
  simp [List.filter_eq_self, Output.isIrq]

/-- Without a CPU a transition puts out the same but for the requests. -/
theorem State.transitionOutputs_withoutCpu (s : State) :
    s.withoutCpu.transitionOutputs = s.transitionOutputs.filter fun o => !o.isIrq := by
  unfold State.transitionOutputs
  cases hm : s.mode with
  | oamSearch | vblank => simp [hm]
  | vramTransfer => simp [hm, filter_irqs_of_enable]
  | hblank =>
    simp only [State.withoutCpu_mode, hm]
    by_cases hly : s.regs.ly = 143
    · rw [if_pos hly, if_pos (show s.withoutCpu.regs.ly = 143 from hly)]
      simp [filter_irqs, filter_irqs_of_enable, filter_observerCalls]
    · rw [if_neg hly, if_neg (show ¬ s.withoutCpu.regs.ly = 143 from hly), List.filter_nil]

theorem State.leaveMode_withoutCpu (s : State) : s.withoutCpu.leaveMode = s.leaveMode.withoutCpu := by
  have hview : s.withoutCpu.rendering.SameView s.rendering :=
    ⟨rfl, fun _ _ _ => rfl, rfl, rfl, rfl, rfl, rfl, rfl, rfl, rfl, rfl, rfl, rfl⟩
  rw [State.leaveMode_congr (u := s) (v := s.withoutCpu) rfl rfl rfl hview, s.leaveMode_frame,
    State.transitionOutputs_withoutCpu]
  simp only [State.withoutCpu, s.leaveMode_outputs, List.filter_append]

theorem State.compared_withoutCpu (s : State) : s.withoutCpu.compared = s.compared.withoutCpu := by
  have hnone : (if s.regs.ly = s.regs.lyc ∧ s.regs.statHi.getLsbD 3 = true ∧ s.cfg.cpuPresent = true
      then [Output.event (.irq .lcdStat)] else []).filter (fun o => !o.isIrq) = [] := by
    split <;> rfl
  simp only [State.compared, State.withoutCpu, List.filter_append, hnone, Bool.false_eq_true, and_false, if_false]
  rfl

/-- Taking the CPU away commutes with every part of a STEP. -/
theorem withoutCpu_simulation : Simulation fun u v => v = u.withoutCpu where
  display := by
    rintro u v rfl
    rfl
  policy := by
    rintro u v rfl
    rfl
  clk := by
    rintro u v rfl
    rfl
  threshold := by
    rintro u v rfl
    unfold State.threshold
    cases hm : u.mode <;> simp [State.withoutCpu, hm, modeThreshold]
  disabled := by
    rintro u v rfl
    rfl
  counted := by
    rintro u v n rfl
    rfl
  leaveMode := by
    rintro u v rfl
    exact u.leaveMode_withoutCpu
  compared := by
    rintro u v rfl
    exact u.compared_withoutCpu

/-- An output that is no request stays without a CPU. -/
theorem State.put_withoutCpu (s : State) {o : Output} (h : o.isIrq = false) :
    s.withoutCpu.put o = (s.put o).withoutCpu := by
  simp [State.withoutCpu, State.put, h]

theorem State.writeVram_withoutCpu (s : State) (o : Nat) (v : Byte) :
    s.withoutCpu.writeVram o v = (s.writeVram o v).withoutCpu := by
  unfold State.writeVram
  rw [apply_ite State.withoutCpu]
  rfl

theorem State.writeOam_withoutCpu (s : State) (o : Nat) (v : Byte) :
    s.withoutCpu.writeOam o v = (s.writeOam o v).withoutCpu := by
  unfold State.writeOam
  rw [apply_ite State.withoutCpu]
  rfl

theorem State.dmaCopy_withoutCpu (s : State) (v : Byte) : s.withoutCpu.dmaCopy v = (s.dmaCopy v).withoutCpu := by
  have hbyte : ∀ u : State, ∀ i,
      State.dmaByte (v.toNat * 256) u.withoutCpu i = (State.dmaByte (v.toNat * 256) u i).withoutCpu := fun u i => by
    simp [State.dmaByte, State.countExtRead, State.setOam, State.extByte, State.withoutCpu, Output.isIrq]
  have hloop := List.foldl_hom State.withoutCpu (l := List.range Config.oamSize) (init := s) hbyte
  refine Eq.trans ?_ (apply_ite State.withoutCpu _ _ _).symm
  rw [← hloop]
  rfl

/-- Without a CPU every instruction leaves the state it leaves with one, but for the CPU and its requests (R245). -/
theorem exec_withoutCpu {i : Instr} {s t : State} (h : exec i s = .next t) :
    exec i s.withoutCpu = .next t.withoutCpu := by
  cases i with
  | step n =>
    obtain ⟨t', ht', rfl⟩ := withoutCpu_simulation.exec_step rfl h
    exact ht'
  | writeVram off v =>
    cases h
    exact congrArg Host.Outcome.next (s.writeVram_withoutCpu _ _)
  | writeOamLo off v =>
    cases h
    exact congrArg Host.Outcome.next (s.writeOam_withoutCpu _ _)
  | writeOamHi off v =>
    cases h
    exact congrArg Host.Outcome.next (s.writeOam_withoutCpu _ _)
  | writeDma v =>
    cases h
    exact congrArg Host.Outcome.next (s.dmaCopy_withoutCpu v)
  | readDma =>
    cases h
    exact congrArg (fun u : State => Host.Outcome.next (u.ret (.byte 0x00))) (s.put_withoutCpu rfl)
  | readOther a =>
    cases h
    exact congrArg (fun u : State => Host.Outcome.next (u.ret (.byte 0x00))) (s.put_withoutCpu rfl)
  | writeOther a v =>
    cases h
    exact congrArg Host.Outcome.next (s.put_withoutCpu rfl)
  | readVram | readOamLo | readOamHi | readLcdc | readStat | readScy | readScx | readLy | readLyc | readBgp | readObp0
  | readObp1 | readWy | readWx | getFramebuffer | writeLcdc | writeStat | writeScy | writeScx | writeLy | writeLyc
  | writeBgp | writeObp0 | writeObp1 | writeWy | writeWx | preboot | powerOn | registerObserver =>
    cases h
    rfl

/-- Settles O42: taking the CPU away commutes with every instruction, and a call begins without outputs. -/
theorem absentCpuOnlyDropsRequests : Obligations.AbsentCpuOnlyDropsRequests := by
  unfold Obligations.AbsentCpuOnlyDropsRequests
  intro i s t _ hs h
  have hstart : s.withoutCpu = { s with cfg := { s.cfg with cpuPresent := false } } := by
    simp only [State.withoutCpu, hs, List.filter_nil]
  rw [← hstart]
  exact exec_withoutCpu h

/-! ### The window -/

/-- The same state with other window registers and another LCDC. -/
def State.withWindow (lcdc wy wx : Byte) (s : State) : State :=
  { s with regs := { s.regs with lcdc := lcdc, wy := wy, wx := wx } }

/-- Two states that differ in the window alone: WY, WX and LCDC bits 6 and 5. -/
def WindowRel (lcdc wy wx : Byte) (s t : State) : Prop :=
  (∀ b, b ≠ 5 → b ≠ 6 → lcdc.getLsbD b = s.regs.lcdc.getLsbD b) ∧ t = s.withWindow lcdc wy wx

/-- The renderers read nothing of the window. -/
theorem withWindow_sameView {lcdc wy wx : Byte} {s : State}
    (h : ∀ b, b ≠ 5 → b ≠ 6 → lcdc.getLsbD b = s.regs.lcdc.getLsbD b) :
    (s.withWindow lcdc wy wx).rendering.SameView s.rendering :=
  ⟨rfl, h, rfl, rfl, rfl, rfl, rfl, rfl, rfl, rfl, rfl, rfl, rfl⟩

theorem State.leaveMode_withWindow {lcdc wy wx : Byte} {s : State}
    (h : ∀ b, b ≠ 5 → b ≠ 6 → lcdc.getLsbD b = s.regs.lcdc.getLsbD b) :
    (s.withWindow lcdc wy wx).leaveMode = s.leaveMode.withWindow lcdc wy wx := by
  rw [State.leaveMode_congr (u := s) (v := s.withWindow lcdc wy wx) rfl rfl rfl (withWindow_sameView h),
    s.leaveMode_frame]
  simp only [State.withWindow, s.leaveMode_outputs]
  rfl

/-- A difference in the window alone stays one in every part of a STEP. -/
theorem windowRel_simulation (lcdc wy wx : Byte) : Simulation (WindowRel lcdc wy wx) where
  display := by
    rintro u v ⟨h, rfl⟩
    exact (h 7 (by decide) (by decide)).symm
  policy := by
    rintro u v ⟨-, rfl⟩
    rfl
  clk := by
    rintro u v ⟨-, rfl⟩
    rfl
  threshold := by
    rintro u v ⟨-, rfl⟩
    rfl
  disabled := by
    rintro u v ⟨h, rfl⟩
    exact ⟨h, rfl⟩
  counted := by
    rintro u v n ⟨h, rfl⟩
    exact ⟨h, rfl⟩
  leaveMode := by
    rintro u v ⟨h, rfl⟩
    refine ⟨?_, State.leaveMode_withWindow h⟩
    rw [u.leaveMode_frame]
    exact h
  compared := by
    rintro u v ⟨h, rfl⟩
    exact ⟨h, rfl⟩

/-- Settles O53: STEP keeps a difference in the window alone. -/
theorem windowStateAffectsNoPixel : Obligations.WindowStateAffectsNoPixel := by
  unfold Obligations.WindowStateAffectsNoPixel
  intro s t n lcdc wy wx hlcdc h
  obtain ⟨t', ht', -, rfl⟩ := (windowRel_simulation lcdc wy wx).exec_step ⟨hlcdc, rfl⟩ h
  exact ht'

end Sys2Proof.Machine
end

section
/-! The sprite renderer (R200 to R212) column by column, in both orders, and what no pixel of it depends on. -/

namespace Sys2Proof.Machine

/-! ### What one entry leaves in one column -/

/-- The shade entry `n` leaves in column `x` of line `y` over the shade there (R203, R206 to R208). -/
def State.entryShade (s : State) (y x : Nat) (old : Shade) (n : Nat) : Shade :=
  if s.onLine (s.sprite n) y then
    match s.opaqueAt (s.sprite n) y x with
    | some c => (s.sprite n).compose (s.spriteShade (s.sprite n) c) old
    | none   => old
  else old

section
variable {s : State} {y x : Nat}

/-- An entry with an opaque pixel in the column writes its shade under R208. -/
theorem State.entryShade_of_opaque {n : Nat} {c : Shade} (hline : s.onLine (s.sprite n) y = true)
    (hc : s.opaqueAt (s.sprite n) y x = some c) (old : Shade) :
    s.entryShade y x old n = if (s.sprite n).attr.getLsbD 7 = true ∧ old ≠ 0 then old
      else palette (if (s.sprite n).attr.getLsbD 4 then s.regs.obp1 else s.regs.obp0) c := by
  rw [State.entryShade, if_pos hline, hc]
  exact Sprite.compose_eq _ _ _

/-- An entry that is no candidate for the column leaves its shade. -/
theorem State.entryShade_of_not_candidate {n : Nat} (h : s.candidate y x n = false) (old : Shade) :
    s.entryShade y x old n = old := by
  unfold State.entryShade
  split
  · rename_i hline
    have hnone : s.opaqueAt (s.sprite n) y x = none := by simpa [State.candidate, hline] using h
    rw [hnone]
  · rfl

/-- A candidate covers the line and has an opaque pixel in the column (R211). -/
theorem State.candidate_iff {n : Nat} :
    s.candidate y x n = true ↔
      s.onLine (s.sprite n) y = true ∧ ∃ c, s.opaqueAt (s.sprite n) y x = some c := by
  simp [State.candidate, Option.isSome_iff_exists]

/-- An entry that asks to be behind leaves a nonzero shade (R208). -/
theorem State.entryShade_of_behind {n : Nat} {old : Shade} (hold : old ≠ 0)
    (h : s.candidate y x n = true → (s.sprite n).attr.getLsbD 7 = true) : s.entryShade y x old n = old := by
  by_cases hc : s.candidate y x n = true
  · obtain ⟨hline, c, hopaque⟩ := State.candidate_iff.mp hc
    rw [State.entryShade_of_opaque hline hopaque, if_pos ⟨h hc, hold⟩]
  · exact State.entryShade_of_not_candidate (Bool.eq_false_iff.mpr hc) old

end

/-! ### What all entries leave in one column, in either order -/

/-- Under oam_overwrite each entry in turn leaves its shade (R210). -/
theorem State.spritesOver_overwrite {s : State} (h : s.cfg.spriteOrder = .oamOverwrite) (y : Nat) (row : Row) {x : Nat}
    (hx : x < 160) : (s.spritesOver y row)[x] = (List.range 40).foldl (s.entryShade y x) row[x] := by
  simp only [State.spritesOver, h]
  exact foldl_getElem hx (fun row n => s.drawSprite_getElem y row n hx) _ row

/-- Under hw_priority the winner alone leaves its shade (R211). -/
theorem State.spritesOver_priority {s : State} (h : s.cfg.spriteOrder = .hwPriority) (y : Nat) (row : Row) {x : Nat}
    (hx : x < 160) :
    (s.spritesOver y row)[x] = ((s.winner y x).map (s.entryShade y x row[x])).getD row[x] := by
  simp only [State.spritesOver, h, State.priorityRow, Vector.getElem_ofFn, Fin.getElem_fin, State.priorityShade]
  cases hw : s.winner y x with
  | none => rfl
  | some n =>
    obtain ⟨-, hcand, -⟩ := s.winner_eq_some y hw
    obtain ⟨hline, c, hc⟩ := State.candidate_iff.mp hcand
    simp only [Option.map_some, Option.getD_some, State.entryShade, hline, hc, if_true]

/-- Settles O57: the composition of the entries, with the shade each leaves written out. -/
theorem overwriteRowByColumns : Obligations.OverwriteRowByColumns := by
  unfold Obligations.OverwriteRowByColumns
  intro s y row x h
  refine (State.spritesOver_overwrite h y row x.isLt).trans ?_
  refine congrArg (fun f => (List.range 40).foldl f row[x]) (funext fun old => funext fun n => ?_)
  by_cases hline : s.onLine (s.sprite n) y = true
  · rw [if_pos hline]
    cases hc : s.opaqueAt (s.sprite n) y x.val with
    | none => exact State.entryShade_of_not_candidate (by simp [State.candidate, hc]) old
    | some c => exact State.entryShade_of_opaque hline hc old
  · rw [if_neg hline]
    exact if_neg hline

/-- The winner is the one candidate that no other beats (R211). -/
theorem State.winner_eq_of_least {s : State} {y x n : Nat} (hn : n < 40) (hcand : s.candidate y x n = true)
    (hleast : ∀ m, m < 40 → s.candidate y x m = true →
      (s.sprite n).x.toNat < (s.sprite m).x.toNat ∨ ((s.sprite n).x = (s.sprite m).x ∧ n ≤ m)) :
    s.winner y x = some n := by
  cases hw : s.winner y x with
  | none => simp [s.winner_eq_none y hw hn] at hcand
  | some b =>
    obtain ⟨hb, hbcand, hbleast⟩ := s.winner_eq_some y hw
    have hbn := hbleast n hn hcand
    have hnb : (s.sprite n).x.toNat < (s.sprite b).x.toNat ∨ ((s.sprite n).x.toNat = (s.sprite b).x.toNat ∧ n ≤ b) :=
      (hleast b hb hbcand).imp_right fun h => ⟨congrArg _ h.1, h.2⟩
    have : b = n := by omega
    rw [this]

/-- With no candidate there is no winner. -/
theorem State.winner_eq_none_of_no_candidate {s : State} {y x : Nat}
    (h : ∀ n, n < 40 → s.candidate y x n = false) : s.winner y x = none := by
  cases hw : s.winner y x with
  | none => rfl
  | some b =>
    obtain ⟨hb, hcand, -⟩ := s.winner_eq_some y hw
    simp [h b hb] at hcand

/-- Settles O58: the entry described is the winner, and the winner alone writes. -/
theorem priorityWinnerIsLeftmostThenEarliest : Obligations.PriorityWinnerIsLeftmostThenEarliest := by
  unfold Obligations.PriorityWinnerIsLeftmostThenEarliest
  intro s y row x h
  refine ⟨fun hnone => ?_, fun n c hn hline hc hleast => ?_⟩
  · refine (State.spritesOver_priority h y row x.isLt).trans ?_
    rw [State.winner_eq_none_of_no_candidate hnone]
    rfl
  · refine (State.spritesOver_priority h y row x.isLt).trans ?_
    rw [State.winner_eq_of_least hn (State.candidate_iff.mpr ⟨hline, c, hc⟩) hleast]
    exact State.entryShade_of_opaque hline hc row[x]

/-- Settles O59: in either order what writes the column is an entry, and each entry leaves the shade. -/
theorem behindSpritesKeepANonzeroPixel : Obligations.BehindSpritesKeepANonzeroPixel := by
  unfold Obligations.BehindSpritesKeepANonzeroPixel
  intro s y row x hnz hbehind
  cases h : s.cfg.spriteOrder with
  | oamOverwrite =>
    refine (State.spritesOver_overwrite h y row x.isLt).trans ?_
    refine List.foldlRecOn (motive := fun shade => shade = row[x]) _ _ rfl fun old hold n hn => ?_
    rw [hold]
    exact State.entryShade_of_behind hnz (hbehind n (List.mem_range.mp hn))
  | hwPriority =>
    refine (State.spritesOver_priority h y row x.isLt).trans ?_
    cases hw : s.winner y x.val with
    | none => rfl
    | some n =>
      obtain ⟨hn, -, -⟩ := s.winner_eq_some y hw
      exact State.entryShade_of_behind hnz (hbehind n hn)

/-! ### The gate -/

/-- Settles O60: an open gate writes one row of the framebuffer, made from the row it holds. -/
theorem spriteEnableGatesTheRenderer : Obligations.SpriteEnableGatesTheRenderer := by
  unfold Obligations.SpriteEnableGatesTheRenderer
  intro s hly
  refine ⟨fun hg hoff => ?_, fun hopen => ?_⟩
  · have hgated : s.spritesGated = true := by rw [State.spritesGated, State.lcdcBit, hg, hoff]; rfl
    rw [State.renderSpritesLine, if_pos hgated]
  · have hgated : ¬ s.spritesGated = true := by
      rcases hopen with h | h <;> simp [State.spritesGated, State.lcdcBit, h]
    rw [State.renderSpritesLine, if_neg hgated]
    refine ⟨fun row hrow x => ?_, fun z x hz => ?_⟩
    · have hsame : s.fbRow s.regs.ly.toNat = row :=
        Vector.ext fun i hi => (s.fbRow_getElem _ hi hly).trans (hrow ⟨i, hi⟩).symm
      rw [hsame, State.setFbRow_pixel, dif_pos ⟨rfl, hly, x.isLt⟩]
      rfl
    · rw [State.setFbRow_pixel, dif_neg fun h => hz h.1]

/-! ### What no pixel depends on -/

/-- The sprites drawn over a row depend on no more than the order, the candidates, their SX and the shade each
leaves. -/
theorem State.spritesOver_congr {s t : State} {y : Nat} (horder : s.cfg.spriteOrder = t.cfg.spriteOrder)
    (hcand : ∀ x n, s.candidate y x n = t.candidate y x n) (hx : ∀ n, (s.sprite n).x = (t.sprite n).x)
    (hentry : ∀ x old n, s.entryShade y x old n = t.entryShade y x old n) (row : Row) :
    s.spritesOver y row = t.spritesOver y row := by
  have he : ∀ x, s.entryShade y x = t.entryShade y x := fun x => funext fun old => funext fun n => hentry x old n
  have hw : ∀ x, s.winner y x = t.winner y x := fun x => by
    have hb : s.betterSprite y x = t.betterSprite y x := by
      funext best n
      simp only [State.betterSprite, hcand, hx]
    rw [State.winner, State.winner, hb]
  refine Vector.ext fun x hlt => ?_
  cases h : s.cfg.spriteOrder with
  | oamOverwrite =>
    rw [State.spritesOver_overwrite h y row hlt, State.spritesOver_overwrite (horder ▸ h) y row hlt, he]
  | hwPriority =>
    rw [State.spritesOver_priority h y row hlt, State.spritesOver_priority (horder ▸ h) y row hlt, he, hw]

/-- The frame the sprite renderer leaves depends on no more than the gate, the line, the frame and the sprites drawn. -/
theorem State.renderSpritesLine_fb_congr {s t : State} (hg : s.spritesGated = t.spritesGated)
    (hly : s.regs.ly = t.regs.ly) (hfb : s.fb = t.fb)
    (hover : ∀ row, s.spritesOver s.regs.ly.toNat row = t.spritesOver s.regs.ly.toNat row) :
    s.renderSpritesLine.fb = t.renderSpritesLine.fb := by
  have hrow : s.fbRow = t.fbRow := by
    funext y
    simp only [State.fbRow, hfb]
  unfold State.renderSpritesLine
  rw [hg]
  split
  · exact hfb
  · rw [← hly, hover, hrow, State.setFbRow, State.setFbRow]
    split
    · rw [State.setFb_fb, State.setFb_fb, hfb]
    · exact hfb

/-- Palettes that agree but for slot 0 map every nonzero colour index alike (R33). -/
theorem palette_congr {p q : Byte} (h : p.toNat / 4 = q.toNat / 4) {c : Shade} (hc : c ≠ 0) :
    palette p c = palette q c := by
  have hpos : c.toNat ≠ 0 := fun h0 => hc (BitVec.eq_of_toNat_eq h0)
  obtain ⟨k, hk⟩ := Nat.exists_eq_succ_of_ne_zero hpos
  have hdiv : ∀ a : Nat, a / 2 ^ (2 * c.toNat) = a / 4 / 2 ^ (2 * k) := fun a => by
    rw [Nat.div_div_eq_div_mul, hk, Nat.mul_succ, Nat.pow_add, Nat.mul_comm]
  apply BitVec.eq_of_toNat_eq
  rw [palette_toNat, palette_toNat, hdiv, hdiv, h]

/-- The state with other object palettes. -/
def State.withObp (s : State) (o0 o1 : Byte) : State := { s with regs := { s.regs with obp0 := o0, obp1 := o1 } }

section
variable (s : State) (o0 o1 : Byte)

theorem State.withObp_sprite : (s.withObp o0 o1).sprite = s.sprite := rfl
theorem State.withObp_onLine : (s.withObp o0 o1).onLine = s.onLine := rfl
theorem State.withObp_opaqueAt : (s.withObp o0 o1).opaqueAt = s.opaqueAt := rfl
theorem State.withObp_candidate : (s.withObp o0 o1).candidate = s.candidate := rfl

end

/-- An entry's opaque pixel has a nonzero index, and slot 0 maps none of those. -/
theorem State.entryShade_withObp {s : State} {o0 o1 : Byte} (h0 : o0.toNat / 4 = s.regs.obp0.toNat / 4)
    (h1 : o1.toNat / 4 = s.regs.obp1.toNat / 4) (y x : Nat) (old : Shade) (n : Nat) :
    (s.withObp o0 o1).entryShade y x old n = s.entryShade y x old n := by
  by_cases hc : s.candidate y x n = true
  · obtain ⟨hline, c, hopaque⟩ := State.candidate_iff.mp hc
    have hp : palette (if (s.sprite n).attr.getLsbD 4 then o1 else o0) c =
        palette (if (s.sprite n).attr.getLsbD 4 then s.regs.obp1 else s.regs.obp0) c := by
      have hne := s.opaqueAt_ne_zero _ _ hopaque
      split
      · exact palette_congr h1 hne
      · exact palette_congr h0 hne
    rw [State.entryShade_of_opaque hline hopaque, ← hp]
    rw [← s.withObp_onLine o0 o1, ← s.withObp_sprite o0 o1] at hline
    rw [← s.withObp_opaqueAt o0 o1, ← s.withObp_sprite o0 o1] at hopaque
    rw [State.entryShade_of_opaque hline hopaque, s.withObp_sprite o0 o1]
    rfl
  · have hnot := Bool.eq_false_iff.mpr hc
    rw [State.entryShade_of_not_candidate hnot]
    rw [← s.withObp_candidate o0 o1] at hnot
    exact State.entryShade_of_not_candidate hnot old

/-- Settles O54: the entries, their places and the shade each leaves are the same, so the frame is. -/
theorem objectPaletteSlotZeroIsUnused : Obligations.ObjectPaletteSlotZeroIsUnused := by
  unfold Obligations.ObjectPaletteSlotZeroIsUnused
  intro s o0 o1 h0 h1
  refine State.renderSpritesLine_fb_congr (s := s.withObp o0 o1) (t := s) rfl rfl rfl fun row => ?_
  refine State.spritesOver_congr (s := s.withObp o0 o1) (t := s) rfl
    (fun x n => ?_) (fun n => ?_) (fun x old n => ?_) row
  · rw [s.withObp_candidate o0 o1]
  · rw [s.withObp_sprite o0 o1]
  · exact State.entryShade_withObp h0 h1 _ x old n

/-- The entry with the low bit of its tile index flipped. -/
def Sprite.flipTile (sp : Sprite) : Sprite := { sp with tile := sp.tile ^^^ 1 }

/-- The tile used for an 8×16 sprite does not depend on the low bit (R201). -/
theorem Sprite.flipTile_tileFor (sp : Sprite) : sp.flipTile.tileFor 16 = sp.tileFor 16 := by
  have hbits : ∀ b : Byte, (b ^^^ 1) &&& 0xFE = b &&& 0xFE := by decide
  exact hbits sp.tile

/-- Nor does a pixel of it. -/
theorem State.opaqueAt_flipTile {s : State} (h : s.spriteHeight = 16) (sp : Sprite) (y x : Nat) :
    s.opaqueAt sp.flipTile y x = s.opaqueAt sp y x := by
  have hcolour : ∀ px, s.spriteColour sp.flipTile y px = s.spriteColour sp y px := fun px => by
    rw [State.spriteColour, State.spriteColour, h, sp.flipTile_tileFor]
    rfl
  simp only [State.opaqueAt, hcolour]
  rfl

/-- The state with the low bit of entry `n`'s stored tile index flipped. -/
def State.flipTile (s : State) (n : Nat) : State :=
  { s with oam := Memory.write s.oam (4 * n + 2) (s.oamByte (4 * n + 2) ^^^ 1) }

/-- That byte belongs to entry `n` alone. -/
theorem State.flipTile_sprite (s : State) (n m : Nat) :
    (s.flipTile n).sprite m = if m = n then (s.sprite m).flipTile else s.sprite m := by
  have hbyte : ∀ o, (s.flipTile n).oamByte o = if o = 4 * n + 2 then s.oamByte (4 * n + 2) ^^^ 1 else s.oamByte o :=
    s.oamByte_write _ _
  unfold State.sprite
  rw [hbyte, hbyte, hbyte, hbyte, if_neg (by omega), if_neg (by omega), if_neg (by omega : ¬ 4 * m + 3 = 4 * n + 2)]
  by_cases hm : m = n
  · rw [if_pos hm, if_pos (by omega), hm]
    rfl
  · rw [if_neg hm, if_neg (by omega)]

section
variable (s : State) (n : Nat)

theorem State.flipTile_onLine : (s.flipTile n).onLine = s.onLine := rfl
theorem State.flipTile_opaqueAt : (s.flipTile n).opaqueAt = s.opaqueAt := rfl
theorem State.flipTile_spriteShade : (s.flipTile n).spriteShade = s.spriteShade := rfl

end

/-- For 8×16 sprites the entries are the candidates they were, at the same place and with the same shade. -/
theorem State.flipTile_entries {s : State} (h : s.spriteHeight = 16) (n y x m : Nat) (old : Shade) :
    (s.flipTile n).candidate y x m = s.candidate y x m ∧ ((s.flipTile n).sprite m).x = (s.sprite m).x ∧
      (s.flipTile n).entryShade y x old m = s.entryShade y x old m := by
  unfold State.candidate State.entryShade
  rw [s.flipTile_onLine, s.flipTile_opaqueAt, s.flipTile_spriteShade, s.flipTile_sprite]
  by_cases hm : m = n
  · rw [if_pos hm, State.opaqueAt_flipTile h]
    exact ⟨rfl, rfl, rfl⟩
  · rw [if_neg hm]
    exact ⟨rfl, rfl, rfl⟩

/-- Settles O55: what the sprites drawn depend on is the same for every entry. -/
theorem tallSpritesIgnoreTheTileLowBit : Obligations.TallSpritesIgnoreTheTileLowBit := by
  unfold Obligations.TallSpritesIgnoreTheTileLowBit
  intro s n htall _
  have hheight : s.spriteHeight = 16 := if_pos htall
  refine State.renderSpritesLine_fb_congr (s := s.flipTile n) (t := s) rfl rfl rfl fun row => ?_
  refine State.spritesOver_congr (s := s.flipTile n) (t := s) rfl
    (fun x m => ?_) (fun m => ?_) (fun x old m => ?_) row
  · obtain ⟨hcand, -, -⟩ := State.flipTile_entries hheight n s.regs.ly.toNat x m 0
    exact hcand
  · obtain ⟨-, hsx, -⟩ := State.flipTile_entries hheight n 0 0 m 0
    exact hsx
  · obtain ⟨-, -, hentry⟩ := State.flipTile_entries hheight n s.regs.ly.toNat x m old
    exact hentry

end Sys2Proof.Machine
end

section
/-! The pixel formulas in plain arithmetic (R181 to R185, R201 to R206), and the rows a STEP may change (R235). -/

namespace Sys2Proof.Machine

/-! ### The rows a STEP may change -/

/-- Only the end of VRAMTransfer changes the framebuffer, and it leaves the frame of both renderers. -/
theorem State.leaveMode_fb (s : State) :
    s.leaveMode.fb = if s.mode = .vramTransfer then s.rendering.renderedFb else s.fb := by
  rcases s.leaveMode_cases with ⟨c, e⟩ | ⟨c, e⟩ | ⟨c, -, e⟩ | ⟨c, -, e⟩ | ⟨c, -, e⟩ | ⟨c, -, e⟩ <;> rw [e, c] <;> rfl

/-- A STEP of the single policy leaves the frame as it was, or, where it ends VRAMTransfer, the frame both renderers
make of line LY. -/
theorem exec_step_fb {s t : State} {n : Nat} (hp : s.cfg.stepPolicy = .single) (h : exec (.step n) s = .next t) :
    t.fb = s.fb ∨ (s.regs.lcdc.getLsbD 7 = true ∧ s.mode = .vramTransfer ∧ s.cfg.tVram ≤ s.clk + n ∧
      t.fb = (s.counted n).rendering.renderedFb) := by
  cases hb : s.regs.lcdc.getLsbD 7 with
  | false =>
    rw [disabledStepForcesVBlank s n hb] at h
    cases h
    exact .inl rfl
  | true =>
    by_cases hle : s.threshold ≤ s.clk + n
    · rw [exec_step_of_le hb hp hle] at h
      cases h
      have hfb : (s.counted n).leaveMode.compared.fb = _ := (s.counted n).leaveMode_fb
      by_cases hm : s.mode = .vramTransfer
      · rw [State.threshold_of_mode hm] at hle
        exact .inr ⟨rfl, hm, hle, hfb.trans (if_pos hm)⟩
      · exact .inl (hfb.trans (if_neg hm))
    · rw [exec_step_of_lt hb (Nat.lt_of_not_le hle)] at h
      cases h
      exact .inl rfl

/-- Settles O49: the renderers write row LY alone. -/
theorem oneRowPerSingleStep : Obligations.OneRowPerSingleStep := by
  unfold Obligations.OneRowPerSingleStep
  intro s t n h hp
  obtain hfb | ⟨hon, hm, hle, hfb⟩ := exec_step_fb hp h
  · exact ⟨fun y x _ => congrArg (Frame.pixel · y x) hfb, fun _ => hfb⟩
  · refine ⟨fun y x hy => ?_, fun hnot => absurd ⟨hon, hm, hle⟩ hnot⟩
    rw [State.viewPixel, hfb]
    exact (s.counted n).rendering.render_pixel hy x

/-! ### The background pixel -/

/-- The offset in VRAM of a map entry (R78, R182). -/
theorem mapAddress_offset (bit3 : Bool) (tr tc : Nat) :
    mapAddress bit3 tr tc - Config.vramBase = (if bit3 then 0x1C00 else 0x1800) + 32 * tr + tc := by
  unfold mapAddress mapBase Config.vramBase
  split <;> omega

/-- The offset in VRAM of byte `k` of a background tile: unsigned from 0x8000, or signed from 0x9000 (R183). -/
theorem bgTileAddress_offset (bit4 : Bool) (idx : Byte) (k : Nat) :
    bgTileAddress bit4 idx + k - Config.vramBase =
      (if bit4 then 16 * idx.toNat
        else if idx.toNat < 128 then 0x1000 + 16 * idx.toNat else 16 * idx.toNat) + k := by
  have hlt := idx.isLt
  unfold bgTileAddress Config.vramBase
  split
  · omega
  · rw [BitVec.toInt_eq_toNat_cond]
    split <;> split <;> omega

/-- In HBlank the background's colour index, from raw VRAM (R181 to R184). -/
theorem State.bgColour_hblank {s : State} (hm : s.mode = .hblank) (y x : Nat) :
    let idx := s.vramByte ((if s.regs.lcdc.getLsbD 3 then 0x1C00 else 0x1800) +
      32 * bgTileRow s.regs.scy y + bgTileCol s.regs.scx x)
    let tile := if s.regs.lcdc.getLsbD 4 then 16 * idx.toNat
      else if idx.toNat < 128 then 0x1000 + 16 * idx.toNat else 16 * idx.toNat
    s.bgColour y x = colourIndex (s.vramByte (tile + 2 * bgPixelRow s.regs.scy y))
      (s.vramByte (tile + 2 * bgPixelRow s.regs.scy y + 1)) (bgBit s.regs.scx x) := by
  intro idx tile
  have hidx : s.memRead (mapAddress (s.lcdcBit 3) (bgTileRow s.regs.scy y) (bgTileCol s.regs.scx x)) = idx := by
    rw [State.memRead_hblank hm, mapAddress_offset]
    rfl
  have hbyte : ∀ k, s.memRead (bgTileAddress (s.lcdcBit 4) idx + k) = s.vramByte (tile + k) := fun k => by
    rw [State.memRead_hblank hm, bgTileAddress_offset]
    rfl
  simp only [State.bgColour, hidx, Nat.add_assoc, hbyte]

/-- The frame at the end of VRAMTransfer holds the background in every column of line LY, with the sprites gated off. -/
theorem State.renderedFb_pixel_of_gated {s : State} {x : Nat} (hg : s.cfg.spriteEnableGated = true)
    (hoff : s.regs.lcdc.getLsbD 1 = false) (hly : s.regs.ly.toNat < 144) (hx : x < 160) :
    s.renderedFb.pixel s.regs.ly.toNat x = s.bgShade s.regs.ly.toNat x := by
  have hgated : s.renderBgLine.renderSpritesLine = s.renderBgLine := by
    refine if_pos ?_
    rw [s.renderBgLine_setFb]
    show (s.cfg.spriteEnableGated && !s.regs.lcdc.getLsbD 1) = true
    rw [hg, hoff]
    rfl
  rw [State.renderedFb, hgated]
  exact s.renderBgLine_viewPixel hly hx

/-- Settles O50: the background's shade is BGP's for the colour index, and both clauses leave that shade: the renderer
by itself, and the end of VRAMTransfer, which renders in HBlank. -/
theorem backgroundPixelFormula : Obligations.BackgroundPixelFormula := by
  unfold Obligations.BackgroundPixelFormula
  intro s x hbg hly hx tr pr tc idx tile lo hi b c shade
  have hshade : ∀ u : State, u.mode = .hblank → u.regs = s.regs → u.vramByte = s.vramByte →
      (u.bgShade s.regs.ly.toNat x).toNat = shade := by
    intro u hm hregs hvram
    have hon : u.lcdcBit 0 = true := by rwa [State.lcdcBit, hregs]
    rw [State.bgShade, if_pos hon, palette_toNat, State.bgColour_hblank hm, colourIndex_toNat, hregs, hvram]
    rfl
  refine ⟨fun hm => ?_, fun n hon hp hm hle hg hoff => ?_⟩
  · rw [s.renderBgLine_viewPixel hly hx, hshade s hm rfl rfl]
  · refine ⟨_, exec_step_of_le hon hp ((State.threshold_of_mode hm).le.trans hle), ?_⟩
    have hfb : (s.counted n).leaveMode.compared.fb = (s.counted n).rendering.renderedFb :=
      (s.counted n).leaveMode_fb.trans (if_pos hm)
    have hpixel := State.renderedFb_pixel_of_gated (s := (s.counted n).rendering) hg hoff hly hx
    rw [State.viewPixel, hfb]
    exact (congrArg BitVec.toNat hpixel).trans (hshade (s.counted n).rendering rfl rfl rfl)

/-! ### The sprite pixel -/

/-- A sprite covers the lines from SY - 16 for its height (R202, R203). -/
theorem Sprite.covers_iff (sp : Sprite) (h y : Nat) :
    sp.covers h y = true ↔ sp.y.toNat ≤ y + 16 ∧ y + 16 < sp.y.toNat + h := by
  rw [Sprite.covers, decide_eq_true_eq, Sprite.top]
  omega

/-- A sprite covers the eight columns from SX - 8 (R202). -/
theorem Sprite.columns_iff (sp : Sprite) (x : Nat) :
    (sp.left ≤ x ∧ (x : Int) < sp.left + 8) ↔ sp.x.toNat ≤ x + 8 ∧ x < sp.x.toNat := by
  unfold Sprite.left
  omega

/-- The tile index used, in plain arithmetic (R201). -/
theorem Sprite.tileFor_toNat (sp : Sprite) (h : Nat) :
    (sp.tileFor h).toNat = if h = 16 then sp.tile.toNat / 2 * 2 else sp.tile.toNat := by
  have hbits : ∀ b : Byte, (b &&& 0xFE).toNat = b.toNat / 2 * 2 := by decide
  unfold Sprite.tileFor
  split
  · exact hbits sp.tile
  · rfl

/-- The row within the sprite, in plain arithmetic (R204). -/
theorem Sprite.rowFor_eq (sp : Sprite) (h y : Nat) :
    sp.rowFor h y = if sp.attr.getLsbD 6 then h - 1 - (y + 16 - sp.y.toNat) else y + 16 - sp.y.toNat := by
  have hoff : ((y : Int) - sp.top).toNat = y + 16 - sp.y.toNat := by
    unfold Sprite.top
    omega
  rw [Sprite.rowFor, hoff, Sprite.flipY]

/-- In HBlank a sprite pixel's colour index, from raw VRAM (R204 to R206). -/
theorem State.spriteColour_hblank {s : State} (hm : s.mode = .hblank) (sp : Sprite) (y px : Nat) :
    s.spriteColour sp y px = colourIndex
      (s.vramByte (16 * (sp.tileFor s.spriteHeight).toNat + 2 * sp.rowFor s.spriteHeight y))
      (s.vramByte (16 * (sp.tileFor s.spriteHeight).toNat + 2 * sp.rowFor s.spriteHeight y + 1)) (sp.bitFor px) := by
  have hbyte : ∀ tile k, s.memRead (spriteTileAddress tile + k) = s.vramByte (16 * tile.toNat + k) := fun tile k => by
    rw [State.memRead_hblank hm, spriteTileAddress, Nat.add_assoc, Nat.add_sub_cancel_left]
  simp only [State.spriteColour, Nat.add_assoc, hbyte]

/-- Settles O56: the entry's bytes by definition; its lines, its columns and its colour index each in plain
arithmetic. -/
theorem spritePixelFormula : Obligations.SpritePixelFormula := by
  unfold Obligations.SpritePixelFormula
  refine ⟨fun s n => ⟨rfl, rfl, rfl, rfl⟩, ?_⟩
  intro s sp y x hm h off row tile px b lo hi c
  refine ⟨?_, ?_, ?_⟩
  · exact sp.covers_iff h y
  · intro hcol
    rw [State.opaqueAt, if_neg ((sp.columns_iff x).not.mpr hcol)]
  · intro _ _ hl hr
    have hpx : ((x : Int) - sp.left).toNat = px := by
      show ((x : Int) - ((sp.x.toNat : Int) - 8)).toNat = x + 8 - sp.x.toNat
      omega
    have hcolour : (s.spriteColour sp y px).toNat = c := by
      rw [State.spriteColour_hblank hm, colourIndex_toNat, sp.tileFor_toNat, sp.rowFor_eq]
      rfl
    rw [State.opaqueAt, if_pos ((sp.columns_iff x).mpr ⟨hl, hr⟩), hpx, ← hcolour]
    generalize s.spriteColour sp y px = colour
    show Option.map BitVec.toNat (if colour = 0 then none else some colour) = _
    by_cases h0 : colour = 0
    · rw [if_pos h0, h0]
      rfl
    · have hne : ¬ colour.toNat = 0 := fun hz => h0 (BitVec.eq_of_toNat_eq hz)
      rw [if_neg h0, if_neg hne]
      rfl

end Sys2Proof.Machine
end

section
/-! The register bank, the arbiters, DMA, creation and the frame access (R130 to R174, R230 to R233, R270 to R272), and
the step itself: what each command makes of the state. -/

namespace Sys2Proof.Machine

/-! ### The step -/

/-- A call begun has left the queue, and its outputs and result start empty. -/
theorem State.beginCall_eq (s : State) (rest : List HostCall) :
    s.beginCall rest = { s with calls := rest, outputs := [], result := .nothing } := rfl

/-- A call that decodes runs its instruction. -/
theorem step_of_decode_ok {s : State} {c : HostCall} {rest : List HostCall} {i : Instr} (hs : s.calls = c :: rest)
    (h : decode c = .ok i) : step s = exec i (s.beginCall rest) := by
  rw [step, hs]
  simp only [h]

/-- Settles O7: the step of a call that decodes. -/
theorem stepRunsTheDecodedCall : Obligations.StepRunsTheDecodedCall := by
  unfold Obligations.StepRunsTheDecodedCall
  intro s c rest i hs h
  rw [step_of_decode_ok hs h, State.beginCall_eq]

/-- Settles O8: an empty queue is the step's first case. -/
theorem idleStepChangesNothing : Obligations.IdleStepChangesNothing := by
  unfold Obligations.IdleStepChangesNothing
  intro s hs
  rw [step, hs]

/-- A table word stands for the call the decoder reads it from (log entry 21). -/
theorem decode_callOfTableWord {nbits w : Nat} {i : Instr} (h : decodeTableWord nbits w = some i) :
    decode (callOfTableWord w) = .ok i := by
  unfold decodeTableWord at h
  split at h
  · cases hd : decode (callOfTableWord w) <;> rw [hd] at h <;> cases h
    rfl
  · cases h

/-- Settles O9: the placed word is the oldest call, and the queue behind it is the one before. -/
theorem placedWordRunsNext : Obligations.PlacedWordRunsNext := by
  unfold Obligations.PlacedWordRunsNext
  intro s nbits w i h
  rw [step_of_decode_ok (s := s.withFetchWord nbits w) rfl (decode_callOfTableWord h)]
  rfl

/-! ### The register bank -/

/-- READ_STAT returns the STAT byte. -/
theorem exec_readStat (s : State) : exec .readStat s = .next { s with result := .byte s.statByte } := rfl

/-- Two bit vectors joined, in plain arithmetic. -/
theorem append_toNat {m n : Nat} (a : BitVec m) (b : BitVec n) : (a ++ b).toNat = a.toNat * 2 ^ n + b.toNat := by
  rw [BitVec.toNat_append, ← Nat.shiftLeft_add_eq_or_of_lt b.isLt, Nat.shiftLeft_eq]

/-- The STAT byte in plain arithmetic (R137). -/
theorem State.statByte_toNat (s : State) :
    s.statByte.toNat = s.regs.statHi.toNat * 8 + (if s.coinc then 4 else 0) +
      (modeCode s.cfg.modeCodes s.mode).toNat := by
  have hflag : (BitVec.ofBool s.coinc).toNat * 2 ^ 2 = if s.coinc then 4 else 0 := by
    cases s.coinc <;> rfl
  refine (append_toNat _ _).trans ?_
  rw [append_toNat, hflag, Nat.add_assoc]
  rfl

/-- Settles O14: the byte in plain arithmetic; its last two bits are the mode's code, by default D4's. -/
theorem statReadsStoredBitsFlagAndMode : Obligations.StatReadsStoredBitsFlagAndMode := by
  unfold Obligations.StatReadsStoredBitsFlagAndMode
  intro s
  refine ⟨s.statByte, exec_readStat s, ?_, fun hdefault => ?_⟩
  · rw [s.statByte_toNat]
    cases s.mode <;> rfl
  · have hlow : s.statByte.toNat % 4 = (modeCode s.cfg.modeCodes s.mode).toNat := by
      have := (modeCode s.cfg.modeCodes s.mode).isLt
      rw [s.statByte_toNat]
      split <;> omega
    rw [hlow, hdefault]
    cases s.mode <;> rfl

/-- Settles O15: the stored bits are bits 7 to 3 of the value, and the lower three of the STAT byte are not stored. -/
theorem statWriteKeepsTheLowThreeBits : Obligations.StatWriteKeepsTheLowThreeBits := by
  unfold Obligations.StatWriteKeepsTheLowThreeBits
  intro s v
  refine ⟨v.extractLsb' 3 5, rfl, s.statByte, (s.setStatHi v).statByte, exec_readStat s,
    exec_readStat (s.setStatHi v), ?_⟩
  have hstored : (v.extractLsb' 3 5).toNat = v.toNat / 8 := by
    have := v.isLt
    rw [BitVec.extractLsb'_toNat, Nat.shiftRight_eq_div_pow]
    omega
  have hcode := (modeCode s.cfg.modeCodes s.mode).isLt
  have hflag : (if s.coinc then 4 else 0) ≤ 4 := by split <;> decide
  have hafter : (s.setStatHi v).statByte.toNat =
      v.toNat / 8 * 8 + (if s.coinc then 4 else 0) + (modeCode s.cfg.modeCodes s.mode).toNat := by
    rw [← hstored]
    exact (s.setStatHi v).statByte_toNat
  rw [hafter, s.statByte_toNat]
  omega

/-- Settles O11: each READ of a byte register returns the stored byte. -/
theorem byteRegisterReadsReturnTheStoredByte : Obligations.ByteRegisterReadsReturnTheStoredByte := by
  unfold Obligations.ByteRegisterReadsReturnTheStoredByte
  intro s
  exact ⟨rfl, rfl, rfl, rfl, rfl, rfl, rfl, rfl, rfl, rfl⟩

/-- Settles O12: each WRITE of a plain register stores the byte. -/
theorem byteRegisterWritesStoreAllBits : Obligations.ByteRegisterWritesStoreAllBits := by
  unfold Obligations.ByteRegisterWritesStoreAllBits
  intro s v
  exact ⟨rfl, rfl, rfl, rfl, rfl, rfl, rfl, rfl, rfl⟩

/-- Settles O13: the value is not looked at (`State.setReg_ly`). -/
theorem lyWriteResetsTheLine : Obligations.LyWriteResetsTheLine := by
  unfold Obligations.LyWriteResetsTheLine
  intro s v
  rfl

/-- Settles O16: the three accesses the core does not serve. -/
theorem unservedAccessesAreLogged : Obligations.UnservedAccessesAreLogged := by
  unfold Obligations.UnservedAccessesAreLogged
  intro s a v
  exact ⟨rfl, rfl, rfl⟩

/-! ### The OAM arbiter -/

/-- READ_OAM of either row returns the arbitrated read. -/
theorem exec_readOamLo (off : BitVec 7) (s : State) :
    exec (.readOamLo off) s = .next { s with result := .byte (s.readOam off.toNat) } := rfl

theorem exec_readOamHi (off : BitVec 5) (s : State) :
    exec (.readOamHi off) s = .next { s with result := .byte (s.readOam (128 + off.toNat)) } := rfl

/-- WRITE_OAM of either row is the arbitrated write. -/
theorem exec_writeOamLo (off : BitVec 7) (v : Byte) (s : State) :
    exec (.writeOamLo off v) s = .next (s.writeOam off.toNat v) := rfl

theorem exec_writeOamHi (off : BitVec 5) (v : Byte) (s : State) :
    exec (.writeOamHi off v) s = .next (s.writeOam (128 + off.toNat) v) := rfl

theorem State.readOam_of_blocked {s : State} (h : s.oamBlocked = true) (o : Nat) : s.readOam o = 0x00 := if_pos h

theorem State.readOam_of_not_blocked {s : State} (h : ¬ s.oamBlocked = true) (o : Nat) : s.readOam o = s.oamByte o :=
  if_neg h

theorem State.writeOam_of_blocked {s : State} (h : s.oamBlocked = true) (o : Nat) (v : Byte) : s.writeOam o v = s :=
  if_pos h

theorem State.writeOam_of_not_blocked {s : State} (h : ¬ s.oamBlocked = true) (o : Nat) (v : Byte) :
    s.writeOam o v = { s with oam := Memory.write s.oam o v } :=
  if_neg h

/-- Settles O19: the statement's condition is the arbiter's own (`State.oamBlocked_iff`), and on each side of it the
reads and the writes have one law each. -/
theorem oamArbiter : Obligations.OamArbiter := by
  unfold Obligations.OamArbiter
  intro s lo hi v
  rw [← State.oamBlocked_iff, exec_readOamLo, exec_readOamHi, exec_writeOamLo, exec_writeOamHi]
  refine ⟨fun blocked => ?_, fun free => ?_⟩
  · simp only [State.readOam_of_blocked blocked, State.writeOam_of_blocked blocked, and_self]
  · simp only [State.readOam_of_not_blocked free, State.writeOam_of_not_blocked free, true_and]
    exact ⟨⟨_, rfl, s.oamByte_write lo.toNat v⟩, ⟨_, rfl, s.oamByte_write (128 + hi.toNat) v⟩⟩

/-! ### DMA -/

/-- WRITE_DMA is the copy. -/
theorem exec_writeDma (v : Byte) (s : State) : exec (.writeDma v) s = .next (s.dmaCopy v) := rfl

/-- With a memory reader the copy is 160 turns of the loop. -/
theorem State.dmaCopy_of_mmu {s : State} (h : s.cfg.mmuPresent = true) (v : Byte) :
    s.dmaCopy v = (List.range 160).foldl (State.dmaByte (v.toNat * 256)) s :=
  if_pos h

/-- Settles O20: what 160 turns of the copy loop do. -/
theorem dmaCopiesOnePage : Obligations.DmaCopiesOnePage := by
  unfold Obligations.DmaCopiesOnePage
  intro s v hmmu
  obtain ⟨m, he, -, hin, hout, -⟩ := dma_loop s (v.toNat * 256) 160
  refine ⟨m, ?_, hin, hout⟩
  rw [exec_writeDma, State.dmaCopy_of_mmu hmmu, he]

/-- Settles O21: without a memory reader the copy is skipped. -/
theorem dmaWithoutMemoryIsNoOp : Obligations.DmaWithoutMemoryIsNoOp := by
  unfold Obligations.DmaWithoutMemoryIsNoOp
  intro s v hmmu
  rw [exec_writeDma, State.dmaCopy, if_neg (Bool.eq_false_iff.mp hmmu)]

/-- Settles O22: the arbiter drops the host's writes, and the copy does not ask it. -/
theorem dmaWritesBehindTheArbiter : Obligations.DmaWritesBehindTheArbiter := by
  unfold Obligations.DmaWritesBehindTheArbiter
  intro s v hmmu hon hm
  have blocked : s.oamBlocked = true := s.oamBlocked_iff.mpr ⟨hon, hm⟩
  refine ⟨fun lo hi w => ⟨?_, ?_⟩, ?_⟩
  · rw [exec_writeOamLo, State.writeOam_of_blocked blocked]
  · rw [exec_writeOamHi, State.writeOam_of_blocked blocked]
  · obtain ⟨m, he, hin, -⟩ := dmaCopiesOnePage s v hmmu
    exact ⟨_, he, rfl, hin⟩

/-! ### Creation, PREBOOT and the frame access -/

/-- POWER_ON creates the core anew. -/
theorem exec_powerOn (s : State) : exec .powerOn s = .next s.create := rfl

/-- Settles O23: the image is the next one the run gives; where it gives none, nothing is listed and nothing filled. -/
theorem powerOnCreatesTheCoreState : Obligations.PowerOnCreatesTheCoreState := by
  unfold Obligations.PowerOnCreatesTheCoreState
  intro s
  refine ⟨s.nextImage, rfl, fun img rest hd => ?_, fun hd t ht o => ?_⟩
  · rw [State.nextImage, hd, List.headD_cons]
  · rw [exec_powerOn] at ht
    cases ht
    have himg : s.nextImage = ⟨[], [], none⟩ := by rw [State.nextImage, hd, List.headD_nil]
    have hfill : s.create.memFill = none := congrArg MemImage.fill himg
    have hvram : s.create.vram = [] := congrArg MemImage.vram himg
    have hoam : s.create.oam = [] := congrArg MemImage.oam himg
    exact ⟨State.vramByte_of_none (by rw [hvram, Memory.lookup_nil]) hfill,
      State.oamByte_of_none (by rw [hoam, Memory.lookup_nil]) hfill⟩

/-- Every pixel of the blank frame is 0. -/
theorem Frame.blank_pixel (y x : Nat) : Frame.blank.pixel y x = 0 := by
  unfold Frame.pixel Frame.blank
  split
  · rw [Vector.getElem_replicate, Vector.getElem_replicate]
  · rfl

/-- Settles O24: the fields of the reset state, each read off; its memories list nothing and no run fixes them. -/
theorem resetIsTheCreatedState : Obligations.ResetIsTheCreatedState := by
  unfold Obligations.ResetIsTheCreatedState
  refine ⟨rfl, rfl, rfl, rfl, rfl, fun r => ?_, Frame.blank_pixel, fun o => ⟨?_, ?_⟩, rfl⟩
  · cases r <;> rfl
  · exact State.vramByte_of_none rfl rfl
  · exact State.oamByte_of_none rfl rfl

/-- Settles O25: PREBOOT's register bank, and the defaults of D9. -/
theorem prebootSetsSevenRegisters : Obligations.PrebootSetsSevenRegisters := by
  unfold Obligations.PrebootSetsSevenRegisters
  exact ⟨fun s => rfl, rfl, rfl, rfl, rfl, rfl, rfl, rfl⟩

/-- Settles O26: each of the two commands changes one field. -/
theorem frameAccessCommands : Obligations.FrameAccessCommands := by
  unfold Obligations.FrameAccessCommands
  intro s o
  exact ⟨rfl, rfl⟩

end Sys2Proof.Machine
end
